-- ==== Sys2Proof/Word.lean ====
section
/-! DEFINITION. The word types of the machine: `00_scope.md` R7 (all quantities are unsigned) and R5 (widths). -/

namespace Sys2Proof

/-- One byte: a register `V[x]`, a timer, a memory byte (R5, R61). -/
abbrev Byte := BitVec 8

/-- 16 bits: `PC`, `I`, a stack slot, an instruction word (R5, R90). -/
abbrev Word := BitVec 16

/-- 4 bits: the field `n` of an instruction word (R91). -/
abbrev Nibble := BitVec 4

/-- 12 bits: the address immediate `nnn` (R91, R93). -/
abbrev Addr12 := BitVec 12

end Sys2Proof
end

