-- ==== Sys2Proof/Syntax.lean ====
section
/-! DEFINITION. The instructions: one constructor per row of `spec/opcode_table.json` (`30_encoding.md` R96, R100).
Operands are the fields of R91 that the instruction uses; the four NOP rows keep the fields that tell their words
apart (log 21). -/

namespace Sys2Proof

/-- The number of a general register, `0 <= r <= 15` (`10_state.md` R21). -/
abbrev Reg := Fin 16

/-- One instruction of the set (R96), or a word of one of the four NOP rows (R100). -/
inductive Instr where
  /-- 00E0 `CLS` (R230) -/
  | cls
  /-- 00EE `RET` (R124) -/
  | ret
  /-- 1NNN `JP nnn` (R125) -/
  | jp (nnn : Addr12)
  /-- 2NNN `CALL nnn` (R126) -/
  | call (nnn : Addr12)
  /-- 3XNN `SE Vx, nn` (R129) -/
  | seImm (x : Reg) (nn : Byte)
  /-- 4XNN `SNE Vx, nn` (R130) -/
  | sneImm (x : Reg) (nn : Byte)
  /-- 5XY0 `SE Vx, Vy` (R131); the low nibble is not decoded (R95) -/
  | seReg (x y : Reg)
  /-- 6XNN `LD Vx, nn` (R150) -/
  | ldImm (x : Reg) (nn : Byte)
  /-- 7XNN `ADD Vx, nn` (R151) -/
  | addImm (x : Reg) (nn : Byte)
  /-- 8XY0 `LD Vx, Vy` (R152) -/
  | ldReg (x y : Reg)
  /-- 8XY1 `OR Vx, Vy` (R153) -/
  | orReg (x y : Reg)
  /-- 8XY2 `AND Vx, Vy` (R154) -/
  | andReg (x y : Reg)
  /-- 8XY3 `XOR Vx, Vy` (R155) -/
  | xorReg (x y : Reg)
  /-- 8XY4 `ADD Vx, Vy` (R156) -/
  | addReg (x y : Reg)
  /-- 8XY5 `SUB Vx, Vy` (R157) -/
  | subReg (x y : Reg)
  /-- 8XY6 `SHR Vx, Vy` (R158) -/
  | shrReg (x y : Reg)
  /-- 8XY7 `SUBN Vx, Vy` (R159) -/
  | subnReg (x y : Reg)
  /-- 8XYE `SHL Vx, Vy` (R160) -/
  | shlReg (x y : Reg)
  /-- 9XY0 `SNE Vx, Vy` (R132); the low nibble is not decoded (R95) -/
  | sneReg (x y : Reg)
  /-- ANNN `LD I, nnn` (R180) -/
  | ldI (nnn : Addr12)
  /-- BNNN `JP V0, nnn` (R128) -/
  | jpV0 (nnn : Addr12)
  /-- CXNN `RND Vx, nn` (R161) -/
  | rnd (x : Reg) (nn : Byte)
  /-- DXYN `DRW Vx, Vy, n` (R231) -/
  | drw (x y : Reg) (n : Nibble)
  /-- EX9E `SKP Vx` (R202) -/
  | skp (x : Reg)
  /-- EXA1 `SKNP Vx` (R203) -/
  | sknp (x : Reg)
  /-- FX07 `LD Vx, DT` (R206) -/
  | ldVxDt (x : Reg)
  /-- FX0A `LD Vx, K` (R204) -/
  | ldVxK (x : Reg)
  /-- FX15 `LD DT, Vx` (R207) -/
  | ldDtVx (x : Reg)
  /-- FX18 `LD ST, Vx` (R208) -/
  | ldStVx (x : Reg)
  /-- FX1E `ADD I, Vx` (R181) -/
  | addI (x : Reg)
  /-- FX29 `LD F, Vx` (R182) -/
  | ldF (x : Reg)
  /-- FX33 `LD B, Vx` (R183) -/
  | ldB (x : Reg)
  /-- FX55 `LD [I], Vx` (R184) -/
  | ldMemVx (x : Reg)
  /-- FX65 `LD Vx, [I]` (R185) -/
  | ldVxMem (x : Reg)
  /-- family 0 remainder, `NOP` (R100, R123) -/
  | nop0 (nnn : Addr12)
  /-- family 8 remainder, `NOP` (R100, R123) -/
  | nop8 (x y : Reg) (n : Nibble)
  /-- family E remainder, `NOP` (R100, R123) -/
  | nopE (x : Reg) (nn : Byte)
  /-- family F remainder, `NOP` (R100, R123) -/
  | nopF (x : Reg) (nn : Byte)
  deriving DecidableEq, Repr

end Sys2Proof
end

