-- ==== Sys2Proof/WellFormed.lean ====
section
/-! DEFINITION. Which terms of `Instr` are instructions of the hardware. Operand widths are in the types; what is left
to check is that a NOP row's word is not one of the 34 defined instructions (`30_encoding.md` R100). -/

namespace Sys2Proof

/-- The words of family 0 that are defined instructions: CLS and RET (R94). -/
def family0Defined : List Addr12 := [0x0E0, 0x0EE]

/-- The low nibbles of family 8 that are defined instructions (R94). -/
def family8Defined : List Nibble := [0, 1, 2, 3, 4, 5, 6, 7, 0xE]

/-- The low bytes of family E that are defined instructions (R94). -/
def familyEDefined : List Byte := [0x9E, 0xA1]

/-- The low bytes of family F that are defined instructions (R94). -/
def familyFDefined : List Byte := [0x07, 0x0A, 0x15, 0x18, 0x1E, 0x29, 0x33, 0x55, 0x65]

/-- A term is an instruction of the hardware: a NOP row holds only the words R100 gives it. -/
def Instr.wf : Instr → Bool
  | .nop0 nnn => !family0Defined.contains nnn
  | .nop8 _ _ n => !family8Defined.contains n
  | .nopE _ nn => !familyEDefined.contains nn
  | .nopF _ nn => !familyFDefined.contains nn
  | .cls | .ret | .jp _ | .call _ | .seImm _ _ | .sneImm _ _ | .seReg _ _ | .ldImm _ _ | .addImm _ _
  | .ldReg _ _ | .orReg _ _ | .andReg _ _ | .xorReg _ _ | .addReg _ _ | .subReg _ _ | .shrReg _ _
  | .subnReg _ _ | .shlReg _ _ | .sneReg _ _ | .ldI _ | .jpV0 _ | .rnd _ _ | .drw _ _ _ | .skp _ | .sknp _
  | .ldVxDt _ | .ldVxK _ | .ldDtVx _ | .ldStVx _ | .addI _ | .ldF _ | .ldB _ | .ldMemVx _ | .ldVxMem _ => true

/-- The instruction is a NOP (R100, R123). -/
def Instr.isNop : Instr → Bool
  | .nop0 _ | .nop8 _ _ _ | .nopE _ _ | .nopF _ _ => true
  | .cls | .ret | .jp _ | .call _ | .seImm _ _ | .sneImm _ _ | .seReg _ _ | .ldImm _ _ | .addImm _ _
  | .ldReg _ _ | .orReg _ _ | .andReg _ _ | .xorReg _ _ | .addReg _ _ | .subReg _ _ | .shrReg _ _
  | .subnReg _ _ | .shlReg _ _ | .sneReg _ _ | .ldI _ | .jpV0 _ | .rnd _ _ | .drw _ _ _ | .skp _ | .sknp _
  | .ldVxDt _ | .ldVxK _ | .ldDtVx _ | .ldStVx _ | .addI _ | .ldF _ | .ldB _ | .ldMemVx _ | .ldVxMem _ => false

end Sys2Proof
end

