-- ==== Sys2Proof/Decode.lean ====
section
/-! DEFINITION. Fields, the decoder and, after it, the encoder (`30_encoding.md` R90 to R96). The decoder is total on
words: it reads nothing but the word and every word has exactly one meaning (R94). -/

namespace Sys2Proof

/-- Two bytes as one word, the byte at the lower address first: `mem[PC] * 256 + mem[PC+1]` (R67, R121). -/
def wordOfBytes (hi lo : Byte) : Word := BitVec.ofNat 16 (hi.toNat * 256 + lo.toNat)

/-- The byte of a word that stands at the lower address, bits 15:8 (R90). -/
def wordHi (w : Word) : Byte := w.extractLsb' 8 8

/-- The byte of a word that stands at the higher address, bits 7:0 (R90). -/
def wordLo (w : Word) : Byte := w.extractLsb' 0 8

/-- `fam`, bits 15:12 (R91). -/
def fieldFam (w : Word) : Nibble := w.extractLsb' 12 4

/-- `x`, bits 11:8 (R91). -/
def fieldX (w : Word) : Reg := (w.extractLsb' 8 4).toFin

/-- `y`, bits 7:4 (R91). -/
def fieldY (w : Word) : Reg := (w.extractLsb' 4 4).toFin

/-- `n`, bits 3:0 (R91). -/
def fieldN (w : Word) : Nibble := w.extractLsb' 0 4

/-- `nn`, bits 7:0 (R91). -/
def fieldNn (w : Word) : Byte := w.extractLsb' 0 8

/-- `nnn`, bits 11:0 (R91). -/
def fieldNnn (w : Word) : Addr12 := w.extractLsb' 0 12

/-- Family 0 sub-dispatches on the full instruction (R94). -/
def decodeFamily0 (w : Word) : Instr :=
  if w = 0x00E0 then .cls
  else if w = 0x00EE then .ret
  else .nop0 (fieldNnn w)

/-- Family 8 sub-dispatches on the low nibble (R94). -/
def decodeFamily8 (w : Word) : Instr :=
  if fieldN w = 0x0 then .ldReg (fieldX w) (fieldY w)
  else if fieldN w = 0x1 then .orReg (fieldX w) (fieldY w)
  else if fieldN w = 0x2 then .andReg (fieldX w) (fieldY w)
  else if fieldN w = 0x3 then .xorReg (fieldX w) (fieldY w)
  else if fieldN w = 0x4 then .addReg (fieldX w) (fieldY w)
  else if fieldN w = 0x5 then .subReg (fieldX w) (fieldY w)
  else if fieldN w = 0x6 then .shrReg (fieldX w) (fieldY w)
  else if fieldN w = 0x7 then .subnReg (fieldX w) (fieldY w)
  else if fieldN w = 0xE then .shlReg (fieldX w) (fieldY w)
  else .nop8 (fieldX w) (fieldY w) (fieldN w)

/-- Family E sub-dispatches on the low byte (R94). -/
def decodeFamilyE (w : Word) : Instr :=
  if fieldNn w = 0x9E then .skp (fieldX w)
  else if fieldNn w = 0xA1 then .sknp (fieldX w)
  else .nopE (fieldX w) (fieldNn w)

/-- Family F sub-dispatches on the low byte (R94). -/
def decodeFamilyF (w : Word) : Instr :=
  if fieldNn w = 0x07 then .ldVxDt (fieldX w)
  else if fieldNn w = 0x0A then .ldVxK (fieldX w)
  else if fieldNn w = 0x15 then .ldDtVx (fieldX w)
  else if fieldNn w = 0x18 then .ldStVx (fieldX w)
  else if fieldNn w = 0x1E then .addI (fieldX w)
  else if fieldNn w = 0x29 then .ldF (fieldX w)
  else if fieldNn w = 0x33 then .ldB (fieldX w)
  else if fieldNn w = 0x55 then .ldMemVx (fieldX w)
  else if fieldNn w = 0x65 then .ldVxMem (fieldX w)
  else .nopF (fieldX w) (fieldNn w)

/-- The decoder: dispatch by the top nibble (R94, R122). -/
def decode (w : Word) : Instr :=
  match (fieldFam w).toNat with
  | 0x0 => decodeFamily0 w
  | 0x1 => .jp (fieldNnn w)
  | 0x2 => .call (fieldNnn w)
  | 0x3 => .seImm (fieldX w) (fieldNn w)
  | 0x4 => .sneImm (fieldX w) (fieldNn w)
  | 0x5 => .seReg (fieldX w) (fieldY w)
  | 0x6 => .ldImm (fieldX w) (fieldNn w)
  | 0x7 => .addImm (fieldX w) (fieldNn w)
  | 0x8 => decodeFamily8 w
  | 0x9 => .sneReg (fieldX w) (fieldY w)
  | 0xA => .ldI (fieldNnn w)
  | 0xB => .jpV0 (fieldNnn w)
  | 0xC => .rnd (fieldX w) (fieldNn w)
  | 0xD => .drw (fieldX w) (fieldY w) (fieldN w)
  | 0xE => decodeFamilyE w
  | _ => decodeFamilyF w

/-- Why a list of bytes holds no instruction: every instruction is two bytes and no word is illegal (R90, R100). -/
inductive DecodeError where
  /-- fewer than two bytes are left -/
  | truncated
  deriving DecidableEq, Repr

/-- The decoder on any bytes: the first two, big-endian, and the rest; a shorter list is rejected by name (R90). -/
def decodeBytes : List Byte → Except DecodeError (Instr × List Byte)
  | hi :: lo :: rest => .ok (decode (wordOfBytes hi lo), rest)
  | [_] => .error .truncated
  | [] => .error .truncated

/-- The instruction the decoder reads from the low `nbits` bits of `w`, numbered as the opcode table numbers them:
bits 15:8 are the byte at the lower address (R90). The decoder refuses no two bytes, so this is never `none` (R94). -/
def decodeTableWord (nbits w : Nat) : Option Instr :=
  let bits : Word := BitVec.ofNat 16 (w % 2 ^ nbits)
  match decodeBytes [wordHi bits, wordLo bits] with
  | .ok (i, _) => some i
  | .error _ => none

/-- A word from its family and its three nibbles, `ffff xxxx yyyy nnnn` (R91). -/
def packXYN (fam : Nat) (x y : Reg) (n : Nibble) : Word :=
  BitVec.ofNat 16 (fam * 4096 + x.val * 256 + y.val * 16 + n.toNat)

/-- A word from its family, `x` and `nn` (R91, formats XIMM and XFN of R92). -/
def packXNn (fam : Nat) (x : Reg) (nn : Byte) : Word :=
  BitVec.ofNat 16 (fam * 4096 + x.val * 256 + nn.toNat)

/-- A word from its family and `nnn` (R91, format ADDR of R92). -/
def packNnn (fam : Nat) (nnn : Addr12) : Word :=
  BitVec.ofNat 16 (fam * 4096 + nnn.toNat)

/-- The encoder: the canonical word of an instruction (the table of R96; `n = 0` for 5XY0 and 9XY0, R95). -/
def encode : Instr → Word
  | .cls => 0x00E0
  | .ret => 0x00EE
  | .jp nnn => packNnn 0x1 nnn
  | .call nnn => packNnn 0x2 nnn
  | .seImm x nn => packXNn 0x3 x nn
  | .sneImm x nn => packXNn 0x4 x nn
  | .seReg x y => packXYN 0x5 x y 0x0
  | .ldImm x nn => packXNn 0x6 x nn
  | .addImm x nn => packXNn 0x7 x nn
  | .ldReg x y => packXYN 0x8 x y 0x0
  | .orReg x y => packXYN 0x8 x y 0x1
  | .andReg x y => packXYN 0x8 x y 0x2
  | .xorReg x y => packXYN 0x8 x y 0x3
  | .addReg x y => packXYN 0x8 x y 0x4
  | .subReg x y => packXYN 0x8 x y 0x5
  | .shrReg x y => packXYN 0x8 x y 0x6
  | .subnReg x y => packXYN 0x8 x y 0x7
  | .shlReg x y => packXYN 0x8 x y 0xE
  | .sneReg x y => packXYN 0x9 x y 0x0
  | .ldI nnn => packNnn 0xA nnn
  | .jpV0 nnn => packNnn 0xB nnn
  | .rnd x nn => packXNn 0xC x nn
  | .drw x y n => packXYN 0xD x y n
  | .skp x => packXNn 0xE x 0x9E
  | .sknp x => packXNn 0xE x 0xA1
  | .ldVxDt x => packXNn 0xF x 0x07
  | .ldVxK x => packXNn 0xF x 0x0A
  | .ldDtVx x => packXNn 0xF x 0x15
  | .ldStVx x => packXNn 0xF x 0x18
  | .addI x => packXNn 0xF x 0x1E
  | .ldF x => packXNn 0xF x 0x29
  | .ldB x => packXNn 0xF x 0x33
  | .ldMemVx x => packXNn 0xF x 0x55
  | .ldVxMem x => packXNn 0xF x 0x65
  | .nop0 nnn => packNnn 0x0 nnn
  | .nop8 x y n => packXYN 0x8 x y n
  | .nopE x nn => packXNn 0xE x nn
  | .nopF x nn => packXNn 0xF x nn

/-- The two bytes of an instruction in memory order (R90, R104). -/
def encodeBytes (i : Instr) : List Byte := [wordHi (encode i), wordLo (encode i)]

/-- The word with the bits the decoder does not read cleared: the low nibble of families 5 and 9 (R95). -/
def canonicalWord (w : Word) : Word :=
  if fieldFam w = 0x5 ∨ fieldFam w = 0x9 then BitVec.ofNat 16 (w.toNat / 16 * 16) else w

end Sys2Proof
end

