-- ==== Sys2Proof/Config.lean ====
section
/-! DEFINITION. The sizes `00_scope.md` R5 fixes, and the one free value, the random source of CXNN (`41_load_alu.md`
R161). The parameters R5 leaves open, at their defaults, stand in `Sys2Proof/Machine/Parameters.lean`. -/

namespace Sys2Proof.Config

/-- `MEM_SIZE`, bytes of main memory (R5, R61). -/
def memSize : Nat := 4096

/-- `PROG_BASE`, where a program is loaded and entered (R5, R71, R321). -/
def progBase : Nat := 0x200

/-- `ROM_MAX` = `MEM_SIZE - PROG_BASE` = 3584 (R5, R323). -/
def romMax : Nat := memSize - progBase

/-- Bytes of one glyph, `FONT_GLYPH_BYTES` (R5). -/
def glyphBytes : Nat := 5

/-- Bytes of the whole font: 16 glyphs of 5 bytes (R5, R31). -/
def fontBytes : Nat := 80

/-- The random source: the `n`-th byte CXNN draws (R161, R263). A FREE VALUE with no body: nothing is known of it
(log 6). -/
opaque randByte : Nat → Byte

end Sys2Proof.Config
end

