-- ==== Sys2Proof/Machine/Parameters.lean ====
section
/-! DEFINITION. The parameters of the block that `00_scope.md` R5 leaves open, at the defaults the spec takes: the font and
its place (`10_state.md` R31; decisions D4, D5), the quota and the rate of ticks (decision D25). -/

namespace Sys2Proof.Config

/-- `FONT_BASE`, a parameter of the block at the value the spec takes (R5, R31; decision D4).
DESIGN CHOICE, unsafe (log 1). -/
def fontBase : Nat := 0x000

/-- Glyphs 0 to 3 (R31). -/
def font0 : List Byte :=
  [0xF0, 0x90, 0x90, 0x90, 0xF0, 0x20, 0x60, 0x20, 0x20, 0x70,
   0xF0, 0x10, 0xF0, 0x80, 0xF0, 0xF0, 0x10, 0xF0, 0x10, 0xF0]

/-- Glyphs 4 to 7 (R31). -/
def font4 : List Byte :=
  [0x90, 0x90, 0xF0, 0x10, 0x10, 0xF0, 0x80, 0xF0, 0x10, 0xF0,
   0xF0, 0x80, 0xF0, 0x90, 0xF0, 0xF0, 0x10, 0x20, 0x40, 0x40]

/-- Glyphs 8 to B (R31). -/
def font8 : List Byte :=
  [0xF0, 0x90, 0xF0, 0x90, 0xF0, 0xF0, 0x90, 0xF0, 0x10, 0xF0,
   0xF0, 0x90, 0xF0, 0x90, 0x90, 0xE0, 0x90, 0xE0, 0x90, 0xE0]

/-- Glyphs C to F (R31). -/
def fontC : List Byte :=
  [0xF0, 0x80, 0x80, 0x80, 0xF0, 0xE0, 0x90, 0x90, 0x90, 0xE0,
   0xF0, 0x80, 0xF0, 0x80, 0xF0, 0xF0, 0x80, 0xF0, 0x80, 0x80]

/-- `FONT[0..79]`, a parameter of the block at the table the spec gives (R5, R31; decision D5).
DESIGN CHOICE, unsafe (log 2). -/
def font : List Byte := font0 ++ font4 ++ font8 ++ fontC

/-- `IPT`, instructions per tick, a parameter at its default (R5, R253). DESIGN CHOICE, unsafe (log 3). -/
def ipt : Nat := 15

/-- `TICK_HZ`, a parameter at its default; no rule depends on it (R5, R335; log 3). -/
def tickHz : Nat := 60

end Sys2Proof.Config
end

