-- ==== Sys2Proof/Machine/State.lean ====
section
/-! DEFINITION. The state of the block (`10_state.md` R20), the inputs and outputs of its interface (R44, R45), the
outcomes of an instruction (`60_exceptions.md` R280) and the state after reset (R43). Fields carry the spec's names. -/

namespace Sys2Proof.Machine

/-- Why a step, an instruction or a load does not complete: the closed list of R280. -/
inductive Fault where
  /-- Code 1. Raised by the fetch of `executeOne` when `PC > 4094` (R121, R281). The tick's loop stops and the machine
  goes on (R254), so no step ends in it. Safe (log 14). -/
  | pcOutOfRange
  /-- Code 2. Returned by `LoadProgram` for more than 3584 bytes, with the offered length, which it records (R280, R282,
  R323). The machine goes on, so no step ends in it. Safe (log 14). -/
  | romTooLarge (offered : Nat)
  /-- Code 3. Raised by CALL with `SP = 16` (R283); recorded for good, every step after the tick answers it. Safe: the
  spec gives the case no value. -/
  | stackOverflow
  /-- Code 4. Raised by RET with `SP = 0` (R284); recorded for good, every step after the tick answers it. Safe: the
  spec gives the case no value. -/
  | stackUnderflow
  deriving DecidableEq, Repr

/-- Why the model gives a step no meaning. -/
inductive Refusal where
  /-- `exec` has no meaning for the instruction; raised only by an arm of `exec`, and no arm raises it. Safe. -/
  | notModelled (mnemonic : String)
  deriving DecidableEq, Repr

/-- The phase of the key wait, `kw_phase` (R36, R205): 0 waits for a press edge, 1 for the latched key's release. -/
inductive KwPhase where
  /-- `kw_phase = 0` -/
  | waitPress
  /-- `kw_phase = 1` -/
  | waitRelease
  deriving DecidableEq, Repr

/-- The three values of `sound_signal` (R39). -/
inductive Sound where
  /-- 0, continue -/
  | cont
  /-- 1, play -/
  | play
  /-- 2, stop -/
  | stop
  deriving DecidableEq, Repr

/-- One host event (`00_scope.md` R6; R44): what the outside world can do to the block, between ticks. -/
inductive HostEvent where
  /-- `Initialize` (R320) -/
  | init
  /-- `LoadProgram(bytes)` (R322) -/
  | loadProgram (bytes : List Byte)
  /-- `SetKey(k, pressed)` (R200); the index is 4 bits wide (R44) -/
  | setKey (k : Fin 16) (pressed : Bool)
  /-- `SetRunning(b)` (R258) -/
  | setRunning (b : Bool)
  /-- a change of the `compat_mode` input (R6, R262) -/
  | setMode (mode : BitVec 3)
  /-- `Tick` (R250) -/
  | tick
  deriving DecidableEq, Repr

/-- Main memory: the bytes that differ from the reset contents, addresses strictly rising (R30; log 16). -/
abbrev Memory := List Host.Cell

/-- One row of the display, 64 cells (R32). -/
abbrev DispRow := Vector Bool 64

/-- The display, 32 rows of 64 cells, `disp[y][x]` (R32). -/
abbrev Display := Vector DispRow 32

/-- The state of the block: the tuple of R20, then the interface's input and outputs, then the model's own fields. -/
structure State where
  /-- `V[0..15]` (R21, R22) -/
  V : Vector Byte 16
  /-- (R23, R24) -/
  PC : Word
  /-- the index register (R25) -/
  I : Word
  /-- `stack[0..15]` (R26) -/
  stack : Vector Word 16
  /-- 0..16, the number of saved return addresses (R26; log 20) -/
  SP : Fin 17
  /-- the delay timer (R28) -/
  DT : Byte
  /-- the sound timer (R29) -/
  ST : Byte
  /-- (R30) -/
  mem : Memory
  /-- (R32) -/
  disp : Display
  /-- `keys[0..15]` (R33) -/
  keys : Vector Bool 16
  /-- `key_just_pressed` (R34) -/
  keyJustPressed : Bool
  /-- `last_key`, 4 bits (R35) -/
  lastKey : Fin 16
  /-- `kw_phase` (R36) -/
  kwPhase : KwPhase
  /-- `kw_key`, 4 bits (R36) -/
  kwKey : Fin 16
  /-- (R37) -/
  running : Bool
  /-- `redraw_flag` (R38) -/
  redrawFlag : Bool
  /-- `sound_signal` (R39) -/
  soundSignal : Sound
  /-- the level input `compat_mode` (R9, R40; log 4) -/
  compatMode : BitVec 3
  /-- the output `render_req` of the last tick (R45; log 8) -/
  renderReq : Bool
  /-- the output `pc_oor` of the last tick (R45; log 8) -/
  pcOor : Bool
  /-- the output `load_err` of the last load (R45; log 8) -/
  loadErr : Bool
  /-- what the last load recorded: the offered length where it failed (R280; log 22) -/
  loadLength : Option Nat
  /-- the model's own: calls of `executeOne` left in the tick under way, 0 between ticks (log 12) -/
  slots : Nat
  /-- the model's own: the stack fault recorded for good (R283, R284; log 13) -/
  faulted : Option Fault
  /-- the model's own: the host events still to come, oldest first (R261; log 9) -/
  events : List HostEvent
  /-- the model's own: how many bytes CXNN has drawn (R263; log 6) -/
  randCount : Nat
  deriving DecidableEq, Repr

/-- The state after `Initialize` (R43, R320, R321), every memory byte at its reset contents. The values the spec does
not give are those of the inputs, outputs and the model's own fields (log 4, 6, 8, 9, 12, 13, 22). -/
def State.reset : State where
  V := Vector.replicate 16 0
  PC := 0x200
  I := 0
  stack := Vector.replicate 16 0
  SP := 0
  DT := 0
  ST := 0
  mem := []
  disp := Vector.replicate 32 (Vector.replicate 64 false)
  keys := Vector.replicate 16 false
  keyJustPressed := false
  lastKey := 0
  kwPhase := .waitPress
  kwKey := 0
  running := false
  redrawFlag := false
  soundSignal := .stop
  compatMode := 0
  renderReq := false
  pcOor := false
  loadErr := false
  loadLength := none
  slots := 0
  faulted := none
  events := []
  randCount := 0

end Sys2Proof.Machine
end

