-- ==== Sys2Proof/Machine/Ops.lean ====
section
/-! DEFINITION. The named operations over the state: the memory primitives (`20_memory.md` R64 to R68), the register
file, the stack (`10_state.md` R27), the program counter (R24), the fetch (`40_fetch_control_flow.md` R121), raising a
fault (R8, `60_exceptions.md` R289) and what the tick's loop does with one (R251, R254, R283). -/

namespace Sys2Proof.Machine

/-- The outcome of an instruction, of a load, of a step. -/
abbrev Result := Host.Outcome State Fault Refusal

/-! ## Memory -/

/-- What an address that is not listed reads as: the reset contents (R43, R320), the font from `FONT_BASE` and 0
elsewhere. -/
def Memory.unlisted (a : Nat) : Byte :=
  if Config.fontBase ≤ a ∧ a < Config.fontBase + Config.fontBytes then
    Config.font.getD (a - Config.fontBase) 0
  else 0

/-- The byte `mem[a]`, for an address below `MEM_SIZE` (R61). -/
def Memory.read : Memory → Nat → Byte
  | [], a => Memory.unlisted a
  | (a', b') :: m, a => if a = a' then b' else Memory.read m a

/-- No entry for the address: it then reads as an unlisted one. -/
def Memory.remove (m : Memory) (a : Nat) : Memory := m.filter fun c => decide (c.1 ≠ a)

/-- An entry put in before the first higher address. -/
def Memory.put : Memory → Nat → Byte → Memory
  | [], a, b => [(a, b)]
  | (a', b') :: m, a, b => if a < a' then (a, b) :: (a', b') :: m else (a', b') :: Memory.put m a b

/-- `mem[a] <- b`, keeping the canonical form: rising addresses, no entry that an unlisted address reads as already. -/
def Memory.write (m : Memory) (a : Nat) (b : Byte) : Memory :=
  if b = Memory.unlisted a then m.remove a else (m.remove a).put a b

/-- The canonical form above a lower bound: every address is at least `lo`, below `MEM_SIZE` and strictly rising, and
no entry is redundant. -/
def Memory.wfFrom : Nat → Memory → Bool
  | _, [] => true
  | lo, (a, b) :: m =>
    decide (lo ≤ a) && decide (a < Config.memSize) && decide (b ≠ Memory.unlisted a) && Memory.wfFrom (a + 1) m

/-- The canonical form of memory: equal memories are equal lists. -/
def Memory.wf (m : Memory) : Bool := Memory.wfFrom 0 m

/-- `MemRead(addr, 1)`: the byte at `addr mod 4096`; it never faults (R64). -/
def State.memRead (s : State) (addr : Nat) : Byte := s.mem.read (addr % Config.memSize)

/-- `MemWrite(addr, 1, v)`: writes the byte at `addr mod 4096`; it never faults (R65). -/
def State.memWrite (s : State) (addr : Nat) (v : Byte) : State :=
  { s with mem := s.mem.write (addr % Config.memSize) v }

/-- The bytes of a list written at ascending addresses (R70; FX33, FX55, `LoadProgram`). -/
def State.memWriteList (s : State) (addr : Nat) : List Byte → State
  | [] => s
  | v :: vs => State.memWriteList (s.memWrite addr v) (addr + 1) vs

/-! ## Registers -/

/-- `V[r]` (R8, R21). -/
def State.reg (s : State) (r : Reg) : Byte := s.V[r.val]

/-- `V[r] <- v` (R8, R21). -/
def State.setReg (s : State) (r : Reg) (v : Byte) : State := { s with V := s.V.set r.val v r.isLt }

/-- `I <- v` (R25). -/
def State.setI (s : State) (v : Word) : State := { s with I := v }

/-- `DT <- v` (R28). -/
def State.setDT (s : State) (v : Byte) : State := { s with DT := v }

/-- `ST <- v` (R29). -/
def State.setST (s : State) (v : Byte) : State := { s with ST := v }

/-- `sound_signal <- v` (R39). -/
def State.setSound (s : State) (v : Sound) : State := { s with soundSignal := v }

/-- The display and the request to render it (R230, R231: every instruction that writes the one sets the other). -/
def State.setDisp (s : State) (d : Display) : State := { s with disp := d, redrawFlag := true }

/-- The key wait's two fields (R36). -/
def State.setKeyWait (s : State) (phase : KwPhase) (key : Fin 16) : State :=
  { s with kwPhase := phase, kwKey := key }

/-- The byte the random source gives this execution of CXNN, a free value (R161, R263; log 6). -/
def State.randByte (s : State) : Byte := Config.randByte s.randCount

/-- The draw is used up: the next execution samples afresh (R263). -/
def State.drawn (s : State) : State := { s with randCount := s.randCount + 1 }

/-- The display cell `disp[y][x]` (R32). -/
def State.cell (s : State) (y : Fin 32) (x : Fin 64) : Bool := s.disp[y.val][x.val]

/-- The level `keys[k]` (R33). -/
def State.key (s : State) (k : Fin 16) : Bool := s.keys[k.val]

/-- The call-stack slot `stack[k]` (R26). -/
def State.slot (s : State) (k : Fin 16) : Word := s.stack[k.val]

/-! ## The program counter -/

/-- `PC <- v`, no advance (R8, R24). -/
def State.setPC (s : State) (v : Word) : State := { s with PC := v }

/-- `advance`: `PC <- (PC + 2) mod 65536` (R8, R24). -/
def State.advance (s : State) : State := s.setPC (s.PC + 2)

/-- A taken skip: `PC <- (PC + 4) mod 65536` (R24, R129). -/
def State.skip (s : State) : State := s.setPC (s.PC + 4)

/-- A conditional skip: skip when the condition holds, else advance (R129 to R132, R202, R203). -/
def State.skipIf (s : State) (cond : Bool) : State := if cond then s.skip else s.advance

/-! ## Faults -/

/-- Raising a fault, the ONE operation for it: the instruction does not execute, no state changes, nothing is saved and
no handler is entered; the outcome is the fault (R8, R120, R289, R290). -/
def raiseFault (f : Fault) : Result := .fault f

/-- The code of a fault (R280). -/
def Fault.code : Fault → Nat
  | .pcOutOfRange => 1
  | .romTooLarge _ => 2
  | .stackOverflow => 3
  | .stackUnderflow => 4

/-- What a fault records beside its name: RomTooLarge the offered length (R280). PcOutOfRange records the value of `PC`,
which stays in `PC`; the stack faults record nothing. -/
def Fault.record : Fault → Option Nat
  | .pcOutOfRange => none
  | .romTooLarge offered => some offered
  | .stackOverflow => none
  | .stackUnderflow => none

/-- The code of the sound signal (R39). -/
def Sound.code : Sound → BitVec 2
  | .cont => 0
  | .play => 1
  | .stop => 2

/-- What the tick's loop notes when an instruction faults (R251 phase 5): `pc_oor` for an out-of-range `PC` (R254);
for the others the record that is never cleared (R283, R284). -/
def leaveLoop (f : Fault) (s : State) : State :=
  match f with
  | .pcOutOfRange => { s with pcOor := true }
  | .stackOverflow => { s with faulted := some .stackOverflow }
  | .stackUnderflow => { s with faulted := some .stackUnderflow }
  | .romTooLarge offered => { s with faulted := some (.romTooLarge offered) }

/-! ## The stack -/

/-- Push: `stack[SP] <- v; SP <- SP + 1`; `none` when it is full (R27). -/
def State.push (s : State) (v : Word) : Option State :=
  if h : s.SP.val < 16 then
    some { s with stack := s.stack.set s.SP.val v h, SP := ⟨s.SP.val + 1, by omega⟩ }
  else none

/-- Pop: `SP <- SP - 1`, the result is `stack[SP]`, the slot keeps its value; `none` when it is empty (R27). -/
def State.pop (s : State) : Option (Word × State) :=
  if h : 0 < s.SP.val then
    some (s.stack[s.SP.val - 1], { s with SP := ⟨s.SP.val - 1, by omega⟩ })
  else none

/-! ## The fetch -/

/-- A fetch is legal only up to `MEM_SIZE - 2` = 4094; the check is on the 16-bit `PC` as it stands (R23, R121). -/
def State.pcInRange (s : State) : Bool := decide (s.PC.toNat + 1 < Config.memSize)

/-- `Fetch16(PC)`: the big-endian word at `PC`, or `none` where the fetch raises PcOutOfRange (R67, R121). -/
def State.fetch16 (s : State) : Option Word :=
  if s.pcInRange then some (wordOfBytes (s.memRead s.PC.toNat) (s.memRead (s.PC.toNat + 1))) else none

end Sys2Proof.Machine
end

