-- ==== Sys2Proof/Machine/Operands.lean ====
section
/-! DEFINITION. Every operand form of the instruction set: the mode predicates (`00_scope.md` R9), immediates
(`30_encoding.md` R93), the registers a mode selects, and the index-relative addresses (`42_index_memory.md` R186). -/

namespace Sys2Proof.Machine

/-! ## Mode predicates (the bit positions: log 5) -/

/-- `COSMAC`: `compat_mode[0] = 1` (R9). -/
def State.cosmac (s : State) : Bool := s.compatMode.getLsbD 0

/-- `MODERN`: `compat_mode[1] = 1`; no rule reads it (R9). -/
def State.modern (s : State) : Bool := s.compatMode.getLsbD 1

/-- `AMIGA`: `compat_mode[2] = 1` (R9). -/
def State.amiga (s : State) : Bool := s.compatMode.getLsbD 2

/-! ## Immediates -/

/-- `zext_16(nnn)`, an address immediate for `PC` and `I` (R93). -/
def zext16 (nnn : Addr12) : Word := nnn.setWidth 16

/-- `zext_16` of a register value, the offset of BNNN and the addend of FX1E (R128, R181). -/
def zextByte (b : Byte) : Word := b.setWidth 16

/-- `nnn[11:8]`, the register index inside the immediate of BNNN (R92, R128). -/
def offsetField (nnn : Addr12) : Reg := (nnn.extractLsb' 8 4).toFin

/-! ## Registers a mode selects -/

/-- The offset register of BNNN: `V[0]` when COSMAC, else `V[x]` (R128). -/
def State.jumpOffset (s : State) (nnn : Addr12) : Byte :=
  if s.cosmac then s.reg 0 else s.reg (offsetField nnn)

/-- The source of a shift: `V[y]` when COSMAC, else `V[x]` (R158, R160). -/
def State.shiftSource (s : State) (x y : Reg) : Byte :=
  if s.cosmac then s.reg y else s.reg x

/-- A hex digit or key index: the register value mod 16, its low four bits (R182, R202, R203). -/
def lowNibble (b : Byte) : Fin 16 := (b.extractLsb' 0 4).toFin

/-! ## Addresses through I -/

/-- The address of the `k`-th byte of an access through `I`, before the access takes it mod 4096 (R186). -/
def State.indexAddr (s : State) (k : Nat) : Nat := s.I.toNat + k

/-- `FONT_BASE + 5 * d`, where `Initialize` put the glyph of a digit (R31, R182). -/
def glyphAddr (d : Fin 16) : Word := BitVec.ofNat 16 (Config.fontBase + Config.glyphBytes * d.val)

/-- `V[0], ..., V[x]`, the operand of a block store (R184). -/
def State.regsUpTo (s : State) (x : Reg) : List Byte := (s.V.toList).take (x.val + 1)

/-- The index register after a block transfer: advanced by `x + 1` when COSMAC (R184, R185). -/
def State.blockIndex (s : State) (x : Reg) : Word :=
  if s.cosmac then s.I + BitVec.ofNat 16 (x.val + 1) else s.I

/-- The three decimal digits of a byte, hundreds first, leading zeros included (R183). -/
def bcdDigits (a : Byte) : List Byte := [a / 100, a / 10 % 10, a % 10]

end Sys2Proof.Machine
end

