-- ==== Sys2Proof/Machine/Flags.lean ====
section
/-! DEFINITION. Every flag computation: the only flag is `V[15]`, and `10_state.md` R41 is the complete list of its
writers. The flag is written last, after the result (R22, `41_load_alu.md` R163). -/

namespace Sys2Proof.Machine

/-- `V[15]`, VF, the flag register (R22). -/
def flagReg : Reg := 15

/-- A flag is delivered as 0 or 1, never any other value (R162). -/
def flagByte (b : Bool) : Byte := if b then 1 else 0

/-- `V[15] <- flag` (R41). -/
def State.setFlag (s : State) (b : Bool) : State := s.setReg flagReg (flagByte b)

/-- The result, then the flag: with `x = 15` the flag is what remains (R22, R163). -/
def State.setResultFlag (s : State) (x : Reg) (result : Byte) (flag : Bool) : State :=
  (s.setReg x result).setFlag flag

/-- Carry of `a + b`: the 9-bit sum exceeds 255 (R156). -/
def carry (a b : Byte) : Bool := decide (255 < a.toNat + b.toNat)

/-- No borrow in `a - b`: the minuend is at least the subtrahend (R157, R159). -/
def noBorrow (a b : Byte) : Bool := decide (b.toNat ≤ a.toNat)

/-- The bit a right shift moves out, `src[0]` (R158). -/
def shiftedOutRight (src : Byte) : Bool := src.getLsbD 0

/-- The bit a left shift moves out, `src[7]` (R160). -/
def shiftedOutLeft (src : Byte) : Bool := src.getLsbD 7

/-- A logic result: under COSMAC, `V[15]` is forced to zero after it (R153, R154, R155). -/
def State.setLogicResult (s : State) (x : Reg) (result : Byte) : State :=
  if s.cosmac then s.setResultFlag x result false else s.setReg x result

/-- FX1E under AMIGA: the new `I` exceeds 0x0FFF (R181). -/
def State.indexOverflow (s : State) (newI : Word) : Bool := s.amiga && decide (0x0FFF < newI.toNat)

end Sys2Proof.Machine
end

