-- ==== Sys2Proof/Machine/Alu.lean ====
section
/-! DEFINITION. Register load, arithmetic, logic, shift and random instructions (`41_load_alu.md` R150 to R163). Each
reads `V[x]` and `V[y]` first, writes the result, then the flag, then advances (R163). -/

namespace Sys2Proof.Machine

/-- 6XNN `LD Vx, nn` (R150). -/
def execLdImm (x : Reg) (nn : Byte) (s : State) : Result :=
  .next (s.setReg x nn).advance

/-- 7XNN `ADD Vx, nn`: no flag (R151). -/
def execAddImm (x : Reg) (nn : Byte) (s : State) : Result :=
  .next (s.setReg x (s.reg x + nn)).advance

/-- 8XY0 `LD Vx, Vy` (R152). -/
def execLdReg (x y : Reg) (s : State) : Result :=
  .next (s.setReg x (s.reg y)).advance

/-- 8XY1 `OR Vx, Vy` (R153). -/
def execOrReg (x y : Reg) (s : State) : Result :=
  .next (s.setLogicResult x (s.reg x ||| s.reg y)).advance

/-- 8XY2 `AND Vx, Vy` (R154). -/
def execAndReg (x y : Reg) (s : State) : Result :=
  .next (s.setLogicResult x (s.reg x &&& s.reg y)).advance

/-- 8XY3 `XOR Vx, Vy` (R155). -/
def execXorReg (x y : Reg) (s : State) : Result :=
  .next (s.setLogicResult x (s.reg x ^^^ s.reg y)).advance

/-- 8XY4 `ADD Vx, Vy`, carry out into the flag (R156). -/
def execAddReg (x y : Reg) (s : State) : Result :=
  .next (s.setResultFlag x (s.reg x + s.reg y) (carry (s.reg x) (s.reg y))).advance

/-- 8XY5 `SUB Vx, Vy`, not-borrow into the flag (R157). -/
def execSubReg (x y : Reg) (s : State) : Result :=
  .next (s.setResultFlag x (s.reg x - s.reg y) (noBorrow (s.reg x) (s.reg y))).advance

/-- 8XY7 `SUBN Vx, Vy`, not-borrow of the reversed difference into the flag (R159). -/
def execSubnReg (x y : Reg) (s : State) : Result :=
  .next (s.setResultFlag x (s.reg y - s.reg x) (noBorrow (s.reg y) (s.reg x))).advance

/-- 8XY6 `SHR Vx, Vy` (R158). -/
def execShrReg (x y : Reg) (s : State) : Result :=
  .next (s.setResultFlag x (s.shiftSource x y >>> 1) (shiftedOutRight (s.shiftSource x y))).advance

/-- 8XYE `SHL Vx, Vy` (R160). -/
def execShlReg (x y : Reg) (s : State) : Result :=
  .next (s.setResultFlag x (s.shiftSource x y <<< 1) (shiftedOutLeft (s.shiftSource x y))).advance

/-- CXNN with the random byte `r` (R161). -/
def rndWith (r : Byte) (x : Reg) (nn : Byte) (s : State) : State :=
  ((s.setReg x (r &&& nn)).drawn).advance

/-- CXNN `RND Vx, nn`: the random byte is a free value, sampled once per execution (R161, R263; log 6). -/
def execRnd (x : Reg) (nn : Byte) (s : State) : Result :=
  .next (rndWith s.randByte x nn s)

end Sys2Proof.Machine
end

