-- ==== Sys2Proof/Machine/Control.lean ====
section
/-! DEFINITION. NOP and the control-transfer instructions (`40_fetch_control_flow.md` R123 to R133). -/

namespace Sys2Proof.Machine

/-- 00EE `RET`: pop to `PC`, no advance; StackUnderflow when the stack is empty (R124, R284). -/
def execRet (s : State) : Result :=
  match s.pop with
  | some (target, s') => .next (s'.setPC target)
  | none => raiseFault .stackUnderflow

/-- 1NNN `JP nnn` (R125). -/
def execJp (nnn : Addr12) (s : State) : Result :=
  .next (s.setPC (zext16 nnn))

/-- 2NNN `CALL nnn`: push `PC + 2`, then jump; StackOverflow when the stack is full (R126, R283). -/
def execCall (nnn : Addr12) (s : State) : Result :=
  match s.push (s.PC + 2) with
  | some s' => .next (s'.setPC (zext16 nnn))
  | none => raiseFault .stackOverflow

/-- BNNN `JP V0, nnn`: the 16-bit sum, not reduced mod 4096 (R128). -/
def execJpV0 (nnn : Addr12) (s : State) : Result :=
  .next (s.setPC (zext16 nnn + zextByte (s.jumpOffset nnn)))

/-- 3XNN `SE Vx, nn` (R129). -/
def execSeImm (x : Reg) (nn : Byte) (s : State) : Result :=
  .next (s.skipIf (decide (s.reg x = nn)))

/-- 4XNN `SNE Vx, nn` (R130). -/
def execSneImm (x : Reg) (nn : Byte) (s : State) : Result :=
  .next (s.skipIf (decide (s.reg x ≠ nn)))

/-- 5XY0 `SE Vx, Vy` (R131). -/
def execSeReg (x y : Reg) (s : State) : Result :=
  .next (s.skipIf (decide (s.reg x = s.reg y)))

/-- 9XY0 `SNE Vx, Vy` (R132). -/
def execSneReg (x y : Reg) (s : State) : Result :=
  .next (s.skipIf (decide (s.reg x ≠ s.reg y)))

/-- NOP, family 0 remainder (R123). -/
def execNop0 (s : State) : Result := .next s.advance

/-- NOP, family 8 remainder (R123). -/
def execNop8 (s : State) : Result := .next s.advance

/-- NOP, family E remainder (R123). -/
def execNopE (s : State) : Result := .next s.advance

/-- NOP, family F remainder (R123). -/
def execNopF (s : State) : Result := .next s.advance

end Sys2Proof.Machine
end

