-- ==== Sys2Proof/Machine/Display.lean ====
section
/-! DEFINITION. The display instructions and the sprite collider (`44_display_sprite.md` R230 to R237). -/

namespace Sys2Proof.Machine

/-- The display with every cell 0 (R230, R322). -/
def blankDisplay : Display := Vector.replicate 32 (Vector.replicate 64 false)

/-- 00E0 `CLS` (R230). -/
def execCls (s : State) : Result :=
  .next (s.setDisp blankDisplay).advance

/-- The bits of a sprite byte, the leftmost pixel (bit 7) first (R231, R233). -/
def spriteBits (b : Byte) : List Bool := (List.range 8).map fun k => b.getLsbD (7 - k)

/-- One sprite row from column `tx` on: XOR every set bit into its cell, note a collision, and stop the row at a set bit
whose column is outside (R231, R232). The Bool is the collision flag so far (R235). -/
def drawBits : List Bool → Nat → DispRow → Bool → DispRow × Bool
  | [], _, row, hit => (row, hit)
  | b :: bs, tx, row, hit =>
    if b then
      if h : tx < 64 then drawBits bs (tx + 1) (row.set tx (!row[tx]) h) (hit || row[tx])
      else (row, hit)
    else drawBits bs (tx + 1) row hit

/-- The sprite rows from display row `ty` on; the first row outside ends the instruction (R231, R232). -/
def drawRows : List Byte → Nat → Nat → Display → Bool → Display × Bool
  | [], _, _, disp, hit => (disp, hit)
  | b :: bs, x0, ty, disp, hit =>
    if h : ty < 32 then
      let drawn := drawBits (spriteBits b) x0 disp[ty] hit
      drawRows bs x0 (ty + 1) (disp.set ty drawn.1 h) drawn.2
    else (disp, hit)

/-- The sprite: `n` bytes through `I`, each address mod 4096, row 0 first (R66, R233). -/
def State.sprite (s : State) (n : Nibble) : List Byte :=
  (List.range n.toNat).map fun row => s.memRead (s.indexAddr row)

/-- The columns' origin, `V[x] mod 64` (R231, R232). -/
def State.originX (s : State) (x : Reg) : Nat := (s.reg x).toNat % 64

/-- The rows' origin, `V[y] mod 32` (R231, R232). -/
def State.originY (s : State) (y : Reg) : Nat := (s.reg y).toNat % 32

/-- The display and the collision flag after drawing; the flag starts at 0 (R231, R235). -/
def State.drawSprite (s : State) (x y : Reg) (n : Nibble) : Display × Bool :=
  drawRows (s.sprite n) (s.originX x) (s.originY y) s.disp false

/-- DXYN `DRW Vx, Vy, n`: the coordinates are read before the flag is written (R22, R231, R235). -/
def execDrw (x y : Reg) (n : Nibble) (s : State) : Result :=
  .next ((s.setDisp (s.drawSprite x y n).1).setFlag (s.drawSprite x y n).2).advance

end Sys2Proof.Machine
end

