-- ==== Sys2Proof/Machine/Index.lean ====
section
/-! DEFINITION. Index-register and memory instructions (`42_index_memory.md` R180 to R186). -/

namespace Sys2Proof.Machine

/-- ANNN `LD I, nnn` (R180). -/
def execLdI (nnn : Addr12) (s : State) : Result :=
  .next (s.setI (zext16 nnn)).advance

/-- FX1E `ADD I, Vx`: the 16-bit sum; under AMIGA the flag is forced to 1 above 0x0FFF and never cleared (R181). -/
def execAddI (x : Reg) (s : State) : Result :=
  let newI := s.I + zextByte (s.reg x)
  if s.indexOverflow newI then .next ((s.setI newI).setFlag true).advance
  else .next (s.setI newI).advance

/-- FX29 `LD F, Vx`: the address of the glyph of `V[x] mod 16`; reads no memory (R182). -/
def execLdF (x : Reg) (s : State) : Result :=
  .next (s.setI (glyphAddr (lowNibble (s.reg x)))).advance

/-- FX33 `LD B, Vx`: hundreds, tens, ones at `I`, `I + 1`, `I + 2`, each mod 4096 (R183). -/
def execLdB (x : Reg) (s : State) : Result :=
  .next (s.memWriteList (s.indexAddr 0) (bcdDigits (s.reg x))).advance

/-- FX55 `LD [I], Vx`: `V[0]`..`V[x]` at `I`.., each address mod 4096; COSMAC then advances `I` (R184). -/
def execLdMemVx (x : Reg) (s : State) : Result :=
  .next ((s.memWriteList (s.indexAddr 0) (s.regsUpTo x)).setI (s.blockIndex x)).advance

/-- The block load of R185: `V[k] <- MemRead(I + k)` for `k = 0 .. x`. -/
def State.loadRegs (s : State) (x : Reg) : State :=
  { s with V := Vector.ofFn fun k : Fin 16 => if k ≤ x then s.memRead (s.indexAddr k.val) else s.reg k }

/-- FX65 `LD Vx, [I]`; COSMAC then advances `I` (R185). -/
def execLdVxMem (x : Reg) (s : State) : Result :=
  .next ((s.loadRegs x).setI (s.blockIndex x)).advance

end Sys2Proof.Machine
end

