-- ==== Sys2Proof/Machine/Keypad.lean ====
section
/-! DEFINITION. The keypad edge tracker (`43_keypad_timers.md` R200), the key and timer instructions (R202 to R208). -/

namespace Sys2Proof.Machine

/-- The event `SetKey(k, pressed)`: on a transition to pressed it records the key and raises the edge (R200). -/
def setKey (k : Fin 16) (pressed : Bool) (s : State) : State :=
  let s' := { s with keys := s.keys.set k.val pressed k.isLt }
  if pressed && !s.key k then { s' with lastKey := k, keyJustPressed := true } else s'

/-- EX9E `SKP Vx`: skip when key `V[x] mod 16` is held (R202). -/
def execSkp (x : Reg) (s : State) : Result :=
  .next (s.skipIf (s.key (lowNibble (s.reg x))))

/-- EXA1 `SKNP Vx`: skip when key `V[x] mod 16` is not held (R203). -/
def execSknp (x : Reg) (s : State) : Result :=
  .next (s.skipIf (!s.key (lowNibble (s.reg x))))

/-- A 4-bit key index as a register value, `zext_8` (R204). -/
def keyByte (k : Fin 16) : Byte := BitVec.ofNat 8 k.val

/-- FX0A `LD Vx, K`: the four rows of R205. A retry leaves `PC` where it is, so the instruction is fetched again
(R204). -/
def execLdVxK (x : Reg) (s : State) : Result :=
  match s.kwPhase with
  | .waitPress =>
    if s.keyJustPressed then .next (s.setKeyWait .waitRelease s.lastKey)
    else .next s
  | .waitRelease =>
    if s.key s.kwKey then .next s
    else .next ((s.setReg x (keyByte s.kwKey)).setKeyWait .waitPress s.kwKey).advance

/-- FX07 `LD Vx, DT` (R206). -/
def execLdVxDt (x : Reg) (s : State) : Result :=
  .next (s.setReg x s.DT).advance

/-- FX15 `LD DT, Vx` (R207). -/
def execLdDtVx (x : Reg) (s : State) : Result :=
  .next (s.setDT (s.reg x)).advance

/-- FX18 `LD ST, Vx`: a non-zero value also sets the sound signal to play (R208). -/
def execLdStVx (x : Reg) (s : State) : Result :=
  if s.reg x = 0 then .next (s.setST (s.reg x)).advance
  else .next ((s.setST (s.reg x)).setSound .play).advance

end Sys2Proof.Machine
end

