-- ==== Sys2Proof/Machine/Sequencer.lean ====
section
/-! DEFINITION. `executeOne` (`40_fetch_control_flow.md` R120), the phases of a tick (`45_frame_sequencer.md` R251 to
R257) and the host events (R258; `70_reset_and_hazards.md` R320, R322). A tick is spread over several steps, one per
instruction (log 12); `tick` at the end is the same event taken whole. -/

namespace Sys2Proof.Machine

/-! ## One instruction -/

/-- `executeOne`: fetch, decode, run; PcOutOfRange where the fetch is not legal (R120, R121). The
check stands here and not in `exec` (log 7). -/
def executeOne (s : State) : Result :=
  match s.fetch16 with
  | some w => exec (decode w) s
  | none => raiseFault .pcOutOfRange

/-! ## The phases of a tick -/

/-- One decrement, never below 0 (R28, R252). -/
def decTimer (t : Byte) : Byte := if t = 0 then 0 else t - 1

/-- Phases 1 to 4 of a running tick and the clearing of `pc_oor` that opens phase 5: the redraw flag, the sound signal,
the two timers; the signal is stop exactly when `ST` goes from 1 to 0 (R251, R252). -/
def timerPhases (s : State) : State :=
  { s with
    redrawFlag := false
    soundSignal := if s.ST = 1 then .stop else .cont
    DT := decTimer s.DT
    ST := decTimer s.ST
    pcOor := false }

/-- Phases 6 and 7: the render request and the key edge (R251, R255, R256). -/
def closePhases (s : State) : State :=
  { s with renderReq := s.redrawFlag, keyJustPressed := false }

/-- The paused tick (R257). -/
def pausedTick (s : State) : State :=
  { s with soundSignal := .stop, renderReq := s.redrawFlag, pcOor := false }

/-- The end of a tick spread over steps: no slot is left, then phases 6 and 7. -/
def closeTick (s : State) : State := closePhases { s with slots := 0 }

/-- Set how many slots of the tick are left; the tick closes when none is (R253). -/
def withSlots (n : Nat) (s : State) : State :=
  match n with
  | 0 => closeTick s
  | k + 1 => { s with slots := k + 1 }

/-- A running tick begins: phases 1 to 4, and `IPT` slots for phase 5 (R251, R253). -/
def beginTick (s : State) : State := withSlots Config.ipt (timerPhases s)

/-- One slot of phase 5, `left` slots remaining after it; a fault leaves the loop and the tick closes (R251, R253,
R254). -/
def runSlot (left : Nat) (s : State) : Result :=
  match executeOne s with
  | .next s' => .next (withSlots left s')
  | .fault f => .next (closeTick (leaveLoop f s))
  | .refused r => .refused r

/-! ## The host events -/

/-- `Initialize` (R320): all of the tuple of R20 takes its reset value; inputs, outputs and the model's own fields are
not of that tuple and stay (log 8). -/
def initState (s : State) : State :=
  { State.reset with
    compatMode := s.compatMode, renderReq := s.renderReq, pcOor := s.pcOor, loadErr := s.loadErr
    loadLength := s.loadLength
    slots := s.slots, faulted := s.faulted, events := s.events, randCount := s.randCount }

/-- `LoadProgram(bytes)`: RomTooLarge above 3584 bytes, before anything changes; else copy, enter at 0x200, clear the
display, unpause (R322, R323, R324). -/
def loadProgram (bytes : List Byte) (s : State) : Result :=
  if Config.romMax < bytes.length then raiseFault (.romTooLarge bytes.length)
  else .next { s.memWriteList Config.progBase bytes with
    PC := BitVec.ofNat 16 Config.progBase, disp := blankDisplay, running := true, loadErr := false
    loadLength := none }

/-- `LoadProgram` as the host sees it: a failed load only reports `load_err` and records the
length it was offered (R280, R282, R323; log 22). -/
def loadEvent (bytes : List Byte) (s : State) : State :=
  match loadProgram bytes s with
  | .next s' => s'
  | .fault f => { s with loadErr := true, loadLength := f.record }
  | .refused _ => s

/-- `SetRunning(b)` (R258). -/
def setRunning (b : Bool) (s : State) : State := { s with running := b }

/-- A change of the `compat_mode` input (R262). -/
def setMode (mode : BitVec 3) (s : State) : State := { s with compatMode := mode }

/-- One host event, between ticks (R6, R261). A tick begins here and its instructions follow, one a step (R250). -/
def applyEvent (e : HostEvent) (s : State) : State :=
  match e with
  | .init => initState s
  | .loadProgram bytes => loadEvent bytes s
  | .setKey k pressed => setKey k pressed s
  | .setRunning b => setRunning b s
  | .setMode mode => setMode mode s
  | .tick => if s.running then beginTick s else pausedTick s

/-- Between ticks: the oldest event still to come takes effect; with none the block does nothing (R6, R261; log 9). -/
def betweenTicks (s : State) : State :=
  match s.events with
  | [] => s
  | e :: rest => applyEvent e { s with events := rest }

/-! ## The tick taken whole -/

/-- Phase 5 taken whole: at most `n` calls of `executeOne`, leaving the loop at a fault (R251, R253, R254). -/
def instrLoop : Nat → State → Result
  | 0, s => .next s
  | n + 1, s =>
    match executeOne s with
    | .next s' => instrLoop n s'
    | .fault f => .next (leaveLoop f s)
    | .refused r => .refused r

/-- The event `Tick` as the spec writes it, one atomic event of seven phases (R250, R251, R257). `step` reaches the
same state in one step per instruction; this form is for stating that. -/
def tick (s : State) : Result :=
  if s.running then
    match instrLoop Config.ipt (timerPhases s) with
    | .next s' => .next (closePhases s')
    | .fault f => .fault f
    | .refused r => .refused r
  else .next (pausedTick s)

/-! ## The outputs -/

/-- The output `fb[64*y + x] = disp[y][x]`, 2048 cells, row-major (R45). -/
def State.fb (s : State) : List Bool := (s.disp.toList.map Vector.toList).flatten

end Sys2Proof.Machine
end

