-- ==== Sys2Proof/Machine/Step.lean ====
section
/-! DEFINITION. One step of the machine: one host event between ticks, one instruction inside a tick (log 9, log 12). -/

namespace Sys2Proof.Machine

/-- One step. After a recorded stack fault the machine answers that fault (R283, R284; log 13). Inside a tick it runs
one slot of the instruction loop (R253); between ticks it takes the oldest host event (R261). -/
def step (s : State) : Host.Outcome State Fault Refusal :=
  match s.faulted with
  | some f => .fault f
  | none =>
    match s.slots with
    | 0 => .next (betweenTicks s)
    | left + 1 => runSlot left s

/-- `s` with the instruction whose low `nbits` bits are `w` stored big-endian where the next step fetches: at `PC`, or
at 0x200 where no fetch is legal at `PC`. Between ticks the machine is put at the start of a running tick's
instruction loop, all of whose slots are left; a recorded fault is lifted (log 11). -/
def State.withFetchWord (s : State) (nbits w : Nat) : State :=
  let bits : Word := BitVec.ofNat 16 (w % 2 ^ nbits)
  let s1 : State := if s.pcInRange then s else s.setPC (BitVec.ofNat 16 Config.progBase)
  let s2 : State := s1.memWriteList s1.PC.toNat [wordHi bits, wordLo bits]
  let s3 : State := if s2.slots = 0 then { s2 with running := true, slots := Config.ipt } else s2
  { s3 with faulted := none }

end Sys2Proof.Machine
end

