-- ==== Sys2Proof/Safety.lean ====
section
/-! DEFINITION. The terms claims are stated in: what a step leaves unchanged, what counts as a run that has not gone
wrong, what the host observes, when a run has ended, and the invariant of the machine. -/

namespace Sys2Proof.Machine

/-- The outcome is a next state, and `P` holds of it. -/
def Yields (r : Result) (P : State → Prop) : Prop := ∃ t, r = .next t ∧ P t

/-- The outcome with `f` applied to its next state. -/
def mapNext (f : State → State) : Result → Result
  | .next s => .next (f s)
  | .fault e => .fault e
  | .refused e => .refused e

/-! ## Frames -/

/-- The parts of the state: one for every field of `State`. -/
inductive Part where
  | V | PC | I | stack | SP | DT | ST | mem | disp | keys | keyJustPressed | lastKey | kwPhase | kwKey | running
  | redrawFlag | soundSignal | compatMode | renderReq | pcOor | loadErr | loadLength | slots | faulted | events
  | randCount
  deriving DecidableEq, Repr

/-- The part reads the same in both states: register by register, slot by slot, memory byte by byte, cell by cell. -/
def Part.same : Part → State → State → Prop
  | .V, s, t => ∀ r, t.reg r = s.reg r
  | .PC, s, t => t.PC = s.PC
  | .I, s, t => t.I = s.I
  | .stack, s, t => ∀ k, t.slot k = s.slot k
  | .SP, s, t => t.SP = s.SP
  | .DT, s, t => t.DT = s.DT
  | .ST, s, t => t.ST = s.ST
  | .mem, s, t => ∀ a, t.memRead a = s.memRead a
  | .disp, s, t => ∀ y x, t.cell y x = s.cell y x
  | .keys, s, t => ∀ k, t.key k = s.key k
  | .keyJustPressed, s, t => t.keyJustPressed = s.keyJustPressed
  | .lastKey, s, t => t.lastKey = s.lastKey
  | .kwPhase, s, t => t.kwPhase = s.kwPhase
  | .kwKey, s, t => t.kwKey = s.kwKey
  | .running, s, t => t.running = s.running
  | .redrawFlag, s, t => t.redrawFlag = s.redrawFlag
  | .soundSignal, s, t => t.soundSignal = s.soundSignal
  | .compatMode, s, t => t.compatMode = s.compatMode
  | .renderReq, s, t => t.renderReq = s.renderReq
  | .pcOor, s, t => t.pcOor = s.pcOor
  | .loadErr, s, t => t.loadErr = s.loadErr
  | .loadLength, s, t => t.loadLength = s.loadLength
  | .slots, s, t => t.slots = s.slots
  | .faulted, s, t => t.faulted = s.faulted
  | .events, s, t => t.events = s.events
  | .randCount, s, t => t.randCount = s.randCount

/-- Every part of the state is unchanged from `s` to `t`, but for the parts listed. -/
def Unchanged (but : List Part) (s t : State) : Prop := ∀ p, p ∉ but → p.same s t

/-! ## Sprites -/

/-- A set bit of the `n`-row sprite at `I` lands on the cell of row `r`, column `c` when its origin is row
`V[y] mod 32`, column `V[x] mod 64`; bits that fall outside the display land on no cell (R231, R232, R233). -/
def State.targeted (s : State) (x y : Reg) (n : Nibble) (r : Fin 32) (c : Fin 64) : Prop :=
  ∃ row bit : Nat, row < n.toNat ∧ bit < 8 ∧
    r.val = (s.reg y).toNat % 32 + row ∧ c.val = (s.reg x).toNat % 64 + bit ∧
    (s.memRead (s.I.toNat + row)).getLsbD (7 - bit) = true

/-! ## Where a step stands -/

/-- The next step takes the host event `e`; `rest` comes after it (R261). -/
def State.atEvent (s : State) (e : HostEvent) (rest : List HostEvent) : Prop :=
  s.faulted = none ∧ s.slots = 0 ∧ s.events = e :: rest

/-- The next step runs an instruction of the tick under way; `left` slots remain after it (R253). -/
def State.atSlot (s : State) (left : Nat) : Prop := s.faulted = none ∧ s.slots = left + 1

/-! ## Safe runs -/

/-- Nothing has gone wrong: no stack fault is recorded and the last tick did not report `pc_oor` (U1, U2, U10 of
`93_implementation_defined.md`). -/
def State.healthy (s : State) : Prop := s.faulted = none ∧ s.pcOor = false

/-- A run of `n` steps from `s` is safe: it ends in a next state and that state is healthy. -/
def safeRun (n : Nat) (s : State) : Prop := Yields (Host.Core.run Sys2Proof.core n s) State.healthy

/-- The end of a run as a reader may define it: the instruction at `PC` is 1NNN with `nnn = PC` (R328). -/
def State.atSelfJump (s : State) : Prop :=
  ∃ nnn : Addr12, s.fetch16.map decode = some (.jp nnn) ∧ zext16 nnn = s.PC

/-- What the host may observe after a tick (R45, R47). -/
structure Observation where
  /-- the frame buffer -/
  fb : List Bool
  /-- `render_req` -/
  renderReq : Bool
  /-- `sound_signal` -/
  soundSignal : Sound
  /-- `pc_oor` -/
  pcOor : Bool
  deriving DecidableEq, Repr

/-- The observation a state gives (R47). -/
def State.observe (s : State) : Observation :=
  { fb := s.fb, renderReq := s.renderReq, soundSignal := s.soundSignal, pcOor := s.pcOor }

/-! ## The invariant -/

/-- What every step keeps: memory is in canonical form, `PC` and the saved return addresses stay within the bounds of
R24, a tick under way has at most `IPT` slots and runs only while the machine runs, and the record of a fault is a
stack fault, and a length is recorded exactly where the last load failed. -/
structure State.Inv (s : State) : Prop where
  memCanonical : s.mem.wf = true
  pcBound : s.PC.toNat ≤ 0x10FE
  stackBound : ∀ k, (s.slot k).toNat ≤ 4096
  slotsBound : s.slots ≤ Config.ipt
  slotsRunning : s.slots ≠ 0 → s.running = true
  loadRecord : s.loadErr = s.loadLength.isSome
  faultIsStack : s.faulted = none ∨ s.faulted = some .stackOverflow ∨ s.faulted = some .stackUnderflow

end Sys2Proof.Machine
end

