-- ==== Sys2Proof/Certificates/Slice0/Obligations.lean ====
section
/-! DEFINITION. The statements about the model, for the provers. Each follows a rule of `spec/`, named in its docstring;
values are given in the rule's own arithmetic (numbers and remainders), and `Unchanged` lists everything that may differ. -/

open Sys2Proof Sys2Proof.Machine

/-! ## Encoding, fetch and the step -/

/-- A word of every family and of every NOP row, as `30_encoding.md` R96 and R100 give them, decodes to its
instruction. -/
def Obligations.WordsOfTheTableDecode : Prop :=
  decode 0x00E0 = .cls ∧ decode 0x00EE = .ret ∧ decode 0x1ABC = .jp 0xABC ∧ decode 0x2ABC = .call 0xABC ∧
  decode 0x3A05 = .seImm 10 0x05 ∧ decode 0x4A05 = .sneImm 10 0x05 ∧ decode 0x5120 = .seReg 1 2 ∧
  decode 0x6A2F = .ldImm 10 0x2F ∧ decode 0x7AFF = .addImm 10 0xFF ∧ decode 0x9120 = .sneReg 1 2 ∧
  decode 0x8126 = .shrReg 1 2 ∧ decode 0x812E = .shlReg 1 2 ∧ decode 0xA2F0 = .ldI 0x2F0 ∧
  decode 0xB210 = .jpV0 0x210 ∧ decode 0xC30F = .rnd 3 0x0F ∧ decode 0xD125 = .drw 1 2 5 ∧
  decode 0xE19E = .skp 1 ∧ decode 0xE1A1 = .sknp 1 ∧ decode 0xF30A = .ldVxK 3 ∧ decode 0xFF65 = .ldVxMem 15 ∧
  decode 0x0123 = .nop0 0x123 ∧ decode 0x8128 = .nop8 1 2 8 ∧ decode 0xE100 = .nopE 1 0x00 ∧
  decode 0xF1FF = .nopF 1 0xFF

/-- Decoder and encoder agree on every well-formed instruction, as words and as bytes with anything behind them, and two
different well-formed instructions have different words (R90, R91, R96). -/
def Obligations.DecodeOfEncodeIsTheInstruction : Prop :=
  (∀ i : Instr, i.wf = true → decode (encode i) = i) ∧
  (∀ (i : Instr) (rest : List Byte), i.wf = true → decodeBytes (encodeBytes i ++ rest) = .ok (i, rest)) ∧
  ∀ i j : Instr, i.wf = true → j.wf = true → encode i = encode j → i = j

/-- Every word decodes to exactly one well-formed instruction, and encoding that gives the word back, but for the low
nibble of families 5 and 9, which is not decoded (R94, R95; decision D11). -/
def Obligations.EveryWordHasOneMeaning : Prop :=
  ∀ w : Word, (decode w).wf = true ∧
    (encode (decode w)).toNat =
      if w.toNat / 4096 = 5 ∨ w.toNat / 4096 = 9 then w.toNat / 16 * 16 else w.toNat

/-- The NOP space is exactly the table of `30_encoding.md` R100. -/
def Obligations.NopSpaceIsTheTable : Prop :=
  ∀ w : Word, (decode w).isNop = true ↔
    (w.toNat / 4096 = 0x0 ∧ w.toNat ≠ 0x00E0 ∧ w.toNat ≠ 0x00EE) ∨
    (w.toNat / 4096 = 0x8 ∧ w.toNat % 16 ∈ [8, 9, 0xA, 0xB, 0xC, 0xD, 0xF]) ∨
    (w.toNat / 4096 = 0xE ∧ w.toNat % 256 ∉ [0x9E, 0xA1]) ∨
    (w.toNat / 4096 = 0xF ∧ w.toNat % 256 ∉ [0x07, 0x0A, 0x15, 0x18, 0x1E, 0x29, 0x33, 0x55, 0x65])

/-- The fetch: big-endian at `PC` and `PC + 1` whatever the parity of `PC`, exactly up to 4094, never wrapped (R67,
R69, R121; decisions D6, D27). -/
def Obligations.FetchIsBigEndianUpTo4094 : Prop :=
  ∀ s : State,
    (s.PC.toNat ≤ 4094 → ∃ w, s.fetch16 = some w ∧
      w.toNat = (s.memRead s.PC.toNat).toNat * 256 + (s.memRead (s.PC.toNat + 1)).toNat) ∧
    (4094 < s.PC.toNat → s.fetch16 = none)

/-- A step inside a tick runs the decoded instruction: the step's state is `exec`'s with one slot used; on the last slot
the tick closes as well, with the render request raised and the key edge cleared (R120, R253, R255, R256; the slot
count is the model's own, log 12). -/
def Obligations.StepRunsTheDecodedInstruction : Prop :=
  ∀ (s s' : State) (left : Nat) (hi lo : Byte) (i : Instr) (rest : List Byte), s.atSlot left → s.PC.toNat ≤ 4094 →
    s.memRead s.PC.toNat = hi → s.memRead (s.PC.toNat + 1) = lo → decodeBytes (hi :: lo :: rest) = .ok (i, rest) →
    exec i s = .next s' →
    step s = .next (if left = 0 then { s' with slots := 0, renderReq := s'.redrawFlag, keyJustPressed := false }
      else { s' with slots := left })

/-- A word placed for the fetch is what the next step runs, from any state (log 11). -/
def Obligations.PlacedWordIsFetchedNext : Prop :=
  ∀ (s : State) (w : Nat), w < 65536 →
    (s.withFetchWord 16 w).fetch16 = some (BitVec.ofNat 16 w) ∧
    (∃ left, (s.withFetchWord 16 w).atSlot left) ∧
    decodeTableWord 16 w = some (decode (BitVec.ofNat 16 w)) ∧
    (s.PC.toNat ≤ 4094 → (s.withFetchWord 16 w).PC = s.PC ∧
      Unchanged [.mem, .running, .slots, .faulted] s (s.withFetchWord 16 w))

/-- An out-of-range `PC` stops the tick's loop, reports `pc_oor` and closes the tick; nothing else changes and the
machine goes on (R254, R281; decision D7; the slots are the model's own, log 12). -/
def Obligations.OutOfRangeFetchClosesTheTick : Prop :=
  ∀ (s : State) (left : Nat), s.atSlot left → 4094 < s.PC.toNat →
    Yields (step s) fun t => t.pcOor = true ∧ t.slots = 0 ∧ t.renderReq = s.redrawFlag ∧ t.keyJustPressed = false ∧
      Unchanged [.pcOor, .slots, .renderReq, .keyJustPressed] s t

/-- A stack fault leaves the loop, closes the tick and is recorded; every later step answers it (R251, R283, R284;
decision D8; the record is the model's own, log 13). -/
def Obligations.StackFaultIsRecordedForGood : Prop :=
  (∀ (s : State) (left : Nat) (w : Word) (f : Fault), s.atSlot left → s.fetch16 = some w →
    exec (decode w) s = .fault f →
    Yields (step s) fun t => t.faulted = some f ∧ t.slots = 0 ∧ t.renderReq = s.redrawFlag ∧
      t.keyJustPressed = false ∧ Unchanged [.faulted, .slots, .renderReq, .keyJustPressed] s t) ∧
  ∀ (s : State) (f : Fault), s.faulted = some f → step s = .fault f

/-! ## Control transfer -/

/-- NOP: every word of the four NOP rows only advances, and in a tick it uses one slot (R123). -/
def Obligations.NopOnlyAdvances : Prop :=
  ∀ (i : Instr) (s : State), i.isNop = true →
    (Yields (exec i s) fun t => t.PC.toNat = (s.PC.toNat + 2) % 65536 ∧ Unchanged [.PC] s t) ∧
    ∀ left w, s.atSlot left → s.fetch16 = some w → decode w = i →
      Yields (step s) fun t => t.PC = s.PC + 2 ∧ t.slots = left

/-- RET: pop, no advance, the slot keeps its value; StackUnderflow with an empty stack (R124, R284; decision D8). -/
def Obligations.ReturnPopsTheStack : Prop :=
  ∀ s : State,
    (∀ k : Fin 16, s.SP.val = k.val + 1 →
      Yields (exec .ret s) fun t => t.PC = s.slot k ∧ t.SP.val = k.val ∧ Unchanged [.PC, .SP] s t) ∧
    (s.SP.val = 0 → exec .ret s = .fault .stackUnderflow)

/-- JP and JP V0: `PC` is set, no advance; the offset register is `V[0]` under COSMAC, else the register of the high
nibble of the immediate; the sum is not reduced mod 4096 (R125, R128). -/
def Obligations.JumpsSetThePC : Prop :=
  ∀ (nnn : Addr12) (s : State),
    (Yields (exec (.jp nnn) s) fun t => t.PC.toNat = nnn.toNat ∧ Unchanged [.PC] s t) ∧
    Yields (exec (.jpV0 nnn) s) fun t =>
      (∀ x : Reg, x.val = nnn.toNat / 256 →
        t.PC.toNat = nnn.toNat + (if s.compatMode.getLsbD 0 then s.reg 0 else s.reg x).toNat) ∧
      Unchanged [.PC] s t

/-- CALL: push `PC + 2`, jump; StackOverflow with a full stack (R126, R283; decisions D8, D9). -/
def Obligations.CallPushesTheReturnAddress : Prop :=
  ∀ (nnn : Addr12) (s : State),
    (∀ k : Fin 16, s.SP.val = k.val →
      Yields (exec (.call nnn) s) fun t => t.PC.toNat = nnn.toNat ∧ t.SP.val = k.val + 1 ∧
        (∀ q, (t.slot q).toNat = if q = k then (s.PC.toNat + 2) % 65536 else (s.slot q).toNat) ∧
        Unchanged [.PC, .SP, .stack] s t) ∧
    (s.SP.val = 16 → exec (.call nnn) s = .fault .stackOverflow)

/-- A return after a call, whatever registers, memory or display the subroutine changed in between, comes back to the
instruction after the call with the stack as deep as before (R27, R124, R126; decision D9). -/
def Obligations.ReturnComesBackAfterTheCall : Prop :=
  ∀ (nnn : Addr12) (s t u : State), exec (.call nnn) s = .next t → (∀ k, u.slot k = t.slot k) → u.SP = t.SP →
    Yields (exec .ret u) fun v => v.PC = s.PC + 2 ∧ v.SP = s.SP ∧ Unchanged [.PC, .SP] u v

/-- SE and SNE: four bytes on when the condition holds, two otherwise (R129 to R132; decision D12). -/
def Obligations.SkipsTestAndAdvance : Prop :=
  ∀ (x y : Reg) (nn : Byte) (s : State),
    (Yields (exec (.seImm x nn) s) fun t =>
      t.PC.toNat = (s.PC.toNat + if s.reg x = nn then 4 else 2) % 65536 ∧ Unchanged [.PC] s t) ∧
    (Yields (exec (.sneImm x nn) s) fun t =>
      t.PC.toNat = (s.PC.toNat + if s.reg x = nn then 2 else 4) % 65536 ∧ Unchanged [.PC] s t) ∧
    (Yields (exec (.seReg x y) s) fun t =>
      t.PC.toNat = (s.PC.toNat + if s.reg x = s.reg y then 4 else 2) % 65536 ∧ Unchanged [.PC] s t) ∧
    Yields (exec (.sneReg x y) s) fun t =>
      t.PC.toNat = (s.PC.toNat + if s.reg x = s.reg y then 2 else 4) % 65536 ∧ Unchanged [.PC] s t

/-! ## Register load, arithmetic, logic, shift, random -/

/-- 6XNN, 7XNN (no flag) and 8XY0 (R150, R151, R152). -/
def Obligations.LoadsMovesAndImmediateAdd : Prop :=
  ∀ (x y : Reg) (nn : Byte) (s : State),
    (Yields (exec (.ldImm x nn) s) fun t => t.PC = s.PC + 2 ∧
      (∀ r, t.reg r = if r = x then nn else s.reg r) ∧ Unchanged [.PC, .V] s t) ∧
    (Yields (exec (.addImm x nn) s) fun t => t.PC = s.PC + 2 ∧
      (∀ r, (t.reg r).toNat = if r = x then ((s.reg x).toNat + nn.toNat) % 256 else (s.reg r).toNat) ∧
      Unchanged [.PC, .V] s t) ∧
    Yields (exec (.ldReg x y) s) fun t => t.PC = s.PC + 2 ∧
      (∀ r, t.reg r = if r = x then s.reg y else s.reg r) ∧ Unchanged [.PC, .V] s t

/-- OR, AND, XOR bit by bit; `V[15]` is forced to zero under COSMAC only (R153, R154, R155), after the result, so
also for `x = 15` (R163; decision D10, log 17). -/
def Obligations.LogicClearsTheFlagUnderCosmac : Prop :=
  ∀ (x y : Reg) (s : State) (i : Instr) (op : Bool → Bool → Bool),
    (i = .orReg x y ∧ op = or) ∨ (i = .andReg x y ∧ op = and) ∨ (i = .xorReg x y ∧ op = xor) →
    Yields (exec i s) fun t => t.PC = s.PC + 2 ∧
      (∀ r k, (t.reg r).getLsbD k =
        if s.compatMode.getLsbD 0 = true ∧ r = 15 then false
        else if r = x then op ((s.reg x).getLsbD k) ((s.reg y).getLsbD k) else (s.reg r).getLsbD k) ∧
      Unchanged [.PC, .V] s t

/-- 8XY4: the sum mod 256, then the carry into `V[15]` (R156). With `x = 15` the carry stands over the sum (R163;
decision D10, log 17). -/
def Obligations.AddWritesSumThenCarry : Prop :=
  ∀ (x y : Reg) (s : State),
    Yields (exec (.addReg x y) s) fun t => t.PC = s.PC + 2 ∧
      (∀ r, (t.reg r).toNat =
        if r = 15 then if 255 < (s.reg x).toNat + (s.reg y).toNat then 1 else 0
        else if r = x then ((s.reg x).toNat + (s.reg y).toNat) % 256 else (s.reg r).toNat) ∧
      Unchanged [.PC, .V] s t

/-- 8XY5 and 8XY7: the difference mod 256, then not-borrow into `V[15]` (R157, R159). With `x = 15` the flag
stands over the difference (R163; decision D10, log 17). -/
def Obligations.SubtractionsWriteDifferenceThenNotBorrow : Prop :=
  ∀ (x y : Reg) (s : State),
    (Yields (exec (.subReg x y) s) fun t => t.PC = s.PC + 2 ∧
      (∀ r, ((t.reg r).toNat : Int) =
        if r = 15 then if (s.reg y).toNat ≤ (s.reg x).toNat then 1 else 0
        else if r = x then (((s.reg x).toNat : Int) - (s.reg y).toNat) % 256 else (s.reg r).toNat) ∧
      Unchanged [.PC, .V] s t) ∧
    Yields (exec (.subnReg x y) s) fun t => t.PC = s.PC + 2 ∧
      (∀ r, ((t.reg r).toNat : Int) =
        if r = 15 then if (s.reg x).toNat ≤ (s.reg y).toNat then 1 else 0
        else if r = x then (((s.reg y).toNat : Int) - (s.reg x).toNat) % 256 else (s.reg r).toNat) ∧
      Unchanged [.PC, .V] s t

/-- 8XY6 and 8XYE: the source is `V[y]` under COSMAC, else `V[x]`; the bit shifted out goes to `V[15]` (R158,
R160). With `x = 15` it stands over the result (R163; decision D10, log 17). -/
def Obligations.ShiftsMoveTheSourceByOne : Prop :=
  ∀ (x y : Reg) (s : State) (src : Byte), src = (if s.compatMode.getLsbD 0 then s.reg y else s.reg x) →
    (Yields (exec (.shrReg x y) s) fun t => t.PC = s.PC + 2 ∧
      (∀ r, (t.reg r).toNat =
        if r = 15 then src.toNat % 2 else if r = x then src.toNat / 2 else (s.reg r).toNat) ∧
      Unchanged [.PC, .V] s t) ∧
    Yields (exec (.shlReg x y) s) fun t => t.PC = s.PC + 2 ∧
      (∀ r, (t.reg r).toNat =
        if r = 15 then src.toNat / 128 else if r = x then src.toNat * 2 % 256 else (s.reg r).toNat) ∧
      Unchanged [.PC, .V] s t

/-- CXNN: whatever byte the random source gives (the free value of log 6), `V[x]` is that byte masked with `nn`, and
the draw is used up (R161, R263; decision D13). -/
def Obligations.RandomByteIsMasked : Prop :=
  ∀ (x : Reg) (nn : Byte) (s : State),
    Yields (exec (.rnd x nn) s) fun t => t.PC = s.PC + 2 ∧ t.randCount = s.randCount + 1 ∧
      (∃ r : Byte, r = Config.randByte s.randCount ∧ t.reg x = r &&& nn) ∧
      (∀ k, nn.getLsbD k = false → (t.reg x).getLsbD k = false) ∧
      (∀ q, q ≠ x → t.reg q = s.reg q) ∧ Unchanged [.PC, .V, .randCount] s t

/-! ## Index register and memory -/

/-- ANNN and FX29: the immediate, and the address of the glyph of `V[x] mod 16` (R180, R182). -/
def Obligations.IndexLoads : Prop :=
  ∀ (nnn : Addr12) (x : Reg) (s : State),
    (Yields (exec (.ldI nnn) s) fun t => t.PC = s.PC + 2 ∧ t.I.toNat = nnn.toNat ∧ Unchanged [.PC, .I] s t) ∧
    Yields (exec (.ldF x) s) fun t => t.PC = s.PC + 2 ∧
      t.I.toNat = Config.fontBase + 5 * ((s.reg x).toNat % 16) ∧ Unchanged [.PC, .I] s t

/-- FX1E: the 16-bit sum; `V[15]` is set to 1 exactly when AMIGA holds and the new `I` exceeds 0x0FFF, and otherwise
untouched (R181; decision D17). -/
def Obligations.AddToIndexSetsTheFlagUnderAmiga : Prop :=
  ∀ (x : Reg) (s : State),
    Yields (exec (.addI x) s) fun t => t.PC = s.PC + 2 ∧
      t.I.toNat = (s.I.toNat + (s.reg x).toNat) % 65536 ∧
      (∀ r, t.reg r = if s.compatMode.getLsbD 2 = true ∧ 0x0FFF < t.I.toNat ∧ r = 15 then 1 else s.reg r) ∧
      Unchanged [.PC, .I, .V] s t

/-- FX33: hundreds, tens and ones at the addresses of `I`, `I + 1` and `I + 2`, each mod 4096; every other byte is
unchanged (R183; decision D18). -/
def Obligations.BcdStoresThreeDigits : Prop :=
  ∀ (x : Reg) (s : State),
    Yields (exec (.ldB x) s) fun t => t.PC = s.PC + 2 ∧
      (t.memRead (s.indexAddr 0)).toNat = (s.reg x).toNat / 100 ∧
      (t.memRead (s.indexAddr 1)).toNat = (s.reg x).toNat / 10 % 10 ∧
      (t.memRead (s.indexAddr 2)).toNat = (s.reg x).toNat % 10 ∧
      (∀ a, (∀ k < 3, a % 4096 ≠ s.indexAddr k % 4096) → t.memRead a = s.memRead a) ∧
      Unchanged [.PC, .mem] s t

/-- FX55: `V[0]` to `V[x]` at ascending addresses from `I`, each mod 4096, every other byte unchanged; COSMAC advances
`I` by `x + 1` (R184). -/
def Obligations.BlockStoreWritesTheRegisters : Prop :=
  ∀ (x : Reg) (s : State),
    Yields (exec (.ldMemVx x) s) fun t => t.PC = s.PC + 2 ∧
      (∀ k : Reg, k ≤ x → t.memRead (s.indexAddr k.val) = s.reg k) ∧
      (∀ a, (∀ k : Reg, k ≤ x → a % 4096 ≠ s.indexAddr k.val % 4096) → t.memRead a = s.memRead a) ∧
      t.I.toNat = (if s.compatMode.getLsbD 0 then s.I.toNat + x.val + 1 else s.I.toNat) % 65536 ∧
      Unchanged [.PC, .mem, .I] s t

/-- FX65: `V[0]` to `V[x]` from ascending addresses, the registers above `x` and all memory unchanged; COSMAC advances
`I` by `x + 1` (R185). -/
def Obligations.BlockLoadReadsTheRegisters : Prop :=
  ∀ (x : Reg) (s : State),
    Yields (exec (.ldVxMem x) s) fun t => t.PC = s.PC + 2 ∧
      (∀ r, t.reg r = if r ≤ x then s.memRead ((s.I.toNat + r.val) % 4096) else s.reg r) ∧
      t.I.toNat = (if s.compatMode.getLsbD 0 then s.I.toNat + x.val + 1 else s.I.toNat) % 65536 ∧
      Unchanged [.PC, .V, .I] s t

/-- A block load from where a block store put them gives the registers back, whatever the registers held meanwhile
(R184, R185, R186). -/
def Obligations.BlockLoadUndoesBlockStore : Prop :=
  ∀ (x : Reg) (s t u : State), exec (.ldMemVx x) s = .next t → (∀ a, u.memRead a = t.memRead a) → u.I = s.I →
    Yields (exec (.ldVxMem x) u) fun v => ∀ r, r ≤ x → v.reg r = s.reg r

/-- A store over the next instruction is what the next fetch sees: FX55 with `x >= 1` whose first two bytes land on
`PC + 2` and `PC + 3` (R78). -/
def Obligations.StoredInstructionIsFetchedNext : Prop :=
  ∀ (x : Reg) (s t : State), 1 ≤ x.val → s.PC.toNat ≤ 4092 → s.I.toNat % 4096 = s.PC.toNat + 2 →
    exec (.ldMemVx x) s = .next t → t.fetch16 = some (wordOfBytes (s.reg 0) (s.reg 1))

/-! ## Keypad and timers -/

/-- EX9E and EXA1: the level of key `V[x] mod 16` decides the skip (R202, R203; decisions D12, D14). -/
def Obligations.KeySkipsReadTheLevel : Prop :=
  ∀ (x : Reg) (k : Fin 16) (s : State), k.val = (s.reg x).toNat % 16 →
    (Yields (exec (.skp x) s) fun t =>
      t.PC.toNat = (s.PC.toNat + if s.key k then 4 else 2) % 65536 ∧ Unchanged [.PC] s t) ∧
    Yields (exec (.sknp x) s) fun t =>
      t.PC.toNat = (s.PC.toNat + if s.key k then 2 else 4) % 65536 ∧ Unchanged [.PC] s t

/-- FX0A, the four rows of the key wait: retry, latch the pressed key, retry while it is held, complete at its release
with the latched key's index (R204, R205; decision D15). -/
def Obligations.KeyWaitFollowsItsTable : Prop :=
  ∀ (x : Reg) (s : State),
    (s.kwPhase = .waitPress → s.keyJustPressed = false → exec (.ldVxK x) s = .next s) ∧
    (s.kwPhase = .waitPress → s.keyJustPressed = true →
      Yields (exec (.ldVxK x) s) fun t =>
        t.kwPhase = .waitRelease ∧ t.kwKey = s.lastKey ∧ Unchanged [.kwPhase, .kwKey] s t) ∧
    (s.kwPhase = .waitRelease → s.key s.kwKey = true → exec (.ldVxK x) s = .next s) ∧
    (s.kwPhase = .waitRelease → s.key s.kwKey = false →
      Yields (exec (.ldVxK x) s) fun t => t.PC = s.PC + 2 ∧ t.kwPhase = .waitPress ∧
        (∀ r, (t.reg r).toNat = if r = x then s.kwKey.val else (s.reg r).toNat) ∧
        Unchanged [.PC, .V, .kwPhase] s t)

/-- With no key edge a key wait makes no progress for a whole tick: `PC` stays on FX0A, no register and no memory byte
changes, all fifteen slots are used (R204, R205, R253; decision D15; fifteen is the default of log 3). -/
def Obligations.KeyWaitWithoutAnEdgeRepeats : Prop :=
  ∀ (x : Reg) (s : State), s.running = true → s.fetch16.map decode = some (.ldVxK x) → s.kwPhase = .waitPress →
    s.keyJustPressed = false →
    Yields (tick s) fun t => t.pcOor = false ∧ t.renderReq = false ∧
      Unchanged [.DT, .ST, .soundSignal, .redrawFlag, .renderReq, .pcOor] s t

/-- The event SetKey: the level, and on a transition to pressed the edge and the last key; nothing else (R200). -/
def Obligations.SetKeyTracksTheEdge : Prop :=
  ∀ (k : Fin 16) (pressed : Bool) (rest : List HostEvent) (s : State), s.atEvent (.setKey k pressed) rest →
    Yields (step s) fun t => t.events = rest ∧ (∀ q, t.key q = if q = k then pressed else s.key q) ∧
      t.lastKey = (if s.key k = false ∧ pressed = true then k else s.lastKey) ∧
      t.keyJustPressed = (if s.key k = false ∧ pressed = true then true else s.keyJustPressed) ∧
      Unchanged [.events, .keys, .lastKey, .keyJustPressed] s t

/-- The key edge ends only with a running tick or with Initialize (R201, R256). -/
def Obligations.KeyEdgeLastsToTheEndOfTheTick : Prop :=
  ∀ s t : State, step s = .next t → s.keyJustPressed = true → t.keyJustPressed = false →
    (0 < s.slots ∧ t.slots = 0 ∧ t.renderReq = t.redrawFlag) ∨ ∃ rest, s.atEvent .init rest

/-- FX07 and FX15: the delay timer is read and written (R206, R207). -/
def Obligations.DelayTimerMoves : Prop :=
  ∀ (x : Reg) (s : State),
    (Yields (exec (.ldVxDt x) s) fun t => t.PC = s.PC + 2 ∧
      (∀ r, t.reg r = if r = x then s.DT else s.reg r) ∧ Unchanged [.PC, .V] s t) ∧
    Yields (exec (.ldDtVx x) s) fun t => t.PC = s.PC + 2 ∧ t.DT = s.reg x ∧ Unchanged [.PC, .DT] s t

/-- FX18: the sound timer is written, and a non-zero value sets the signal to play (R208; decision D16). -/
def Obligations.SoundTimerWriteStartsTheTone : Prop :=
  ∀ (x : Reg) (s : State),
    Yields (exec (.ldStVx x) s) fun t => t.PC = s.PC + 2 ∧ t.ST = s.reg x ∧
      t.soundSignal = (if (s.reg x).toNat = 0 then s.soundSignal else .play) ∧
      Unchanged [.PC, .ST, .soundSignal] s t

/-! ## Display -/

/-- 00E0: every cell 0, a redraw requested, `V[15]` untouched (R230; decision D20). -/
def Obligations.ClearScreenBlanksTheDisplay : Prop :=
  ∀ s : State, Yields (exec .cls s) fun t => t.PC = s.PC + 2 ∧ (∀ y x, t.cell y x = false) ∧
    t.redrawFlag = true ∧ Unchanged [.PC, .disp, .redrawFlag] s t

/-- DXYN: exactly the cells a set bit of the sprite lands on are toggled; `V[15]` ends as 1 when one of them was set
before and as 0 otherwise; a redraw is requested (R231, R233, R235). The clip at column 64, the
clearing of the flag and the redraw on every execution, `n = 0` and all clipped included, are decision D19 (R232, R236;
log 17). -/
def Obligations.DrawTogglesTheTargetedCells : Prop :=
  ∀ (x y : Reg) (n : Nibble) (s : State),
    Yields (exec (.drw x y n) s) fun t => t.PC = s.PC + 2 ∧ t.redrawFlag = true ∧
      (∀ r c, (t.cell r c ≠ s.cell r c) ↔ s.targeted x y n r c) ∧
      ((∃ r c, s.targeted x y n r c ∧ s.cell r c = true) → t.reg 15 = 1) ∧
      ((¬ ∃ r c, s.targeted x y n r c ∧ s.cell r c = true) → t.reg 15 = 0) ∧
      (∀ q, q ≠ 15 → t.reg q = s.reg q) ∧ Unchanged [.PC, .disp, .V, .redrawFlag] s t

/-- DXYN with `n = 0` draws nothing and still clears `V[15]` and requests a redraw (R234, R236; decision D19). -/
def Obligations.DrawOfNoRowsDrawsNothing : Prop :=
  ∀ (x y : Reg) (s : State),
    Yields (exec (.drw x y 0) s) fun t => t.PC = s.PC + 2 ∧ t.redrawFlag = true ∧
      (∀ q, t.reg q = if q = 15 then 0 else s.reg q) ∧ Unchanged [.PC, .V, .redrawFlag] s t

/-- Drawing the same sprite twice at the same place restores the display, and the second draw collides exactly when the
first one set a cell (R237, derived there from R231; the clip is decision D19). -/
def Obligations.DrawingTwiceRestoresTheDisplay : Prop :=
  ∀ (x y : Reg) (n : Nibble) (s t : State), exec (.drw x y n) s = .next t →
    (t.reg x).toNat % 64 = (s.reg x).toNat % 64 → (t.reg y).toNat % 32 = (s.reg y).toNat % 32 →
    Yields (exec (.drw x y n) t) fun u => (∀ r c, u.cell r c = s.cell r c) ∧
      (u.reg 15 = 1 ↔ ∃ r c, s.targeted x y n r c ∧ s.cell r c = false)

/-! ## Frame sequencer -/

/-- A running tick begins: the redraw flag cleared, the signal continue or, exactly when `ST` reaches zero, stop, each
timer one less and never below 0, `pc_oor` cleared, and fifteen slots to run (R251 phases 1 to 5, R252, R253). That this is one
step, with the slots counted in the state, is the model's choice (log 12); fifteen is the default of `IPT` (log 3). -/
def Obligations.RunningTickBeginsWithTheTimers : Prop :=
  ∀ (rest : List HostEvent) (s : State), s.atEvent .tick rest → s.running = true →
    Yields (step s) fun t => t.events = rest ∧ t.redrawFlag = false ∧ t.pcOor = false ∧ t.slots = 15 ∧
      t.DT.toNat = s.DT.toNat - 1 ∧ t.ST.toNat = s.ST.toNat - 1 ∧
      t.soundSignal = (if s.ST.toNat = 1 then .stop else .cont) ∧
      Unchanged [.events, .redrawFlag, .pcOor, .slots, .DT, .ST, .soundSignal] s t

/-- A paused tick: stop, the pending redraw requested again, nothing else; timers, edge and key wait are frozen (R257;
decision D23). -/
def Obligations.PausedTickOnlySignals : Prop :=
  ∀ (rest : List HostEvent) (s : State), s.atEvent .tick rest → s.running = false →
    Yields (step s) fun t => t.events = rest ∧ t.soundSignal = .stop ∧ t.renderReq = s.redrawFlag ∧ t.pcOor = false ∧
      Unchanged [.events, .soundSignal, .renderReq, .pcOor] s t

/-- A tick spread over steps is the tick of the spec: from a Tick event the machine reaches, in at most 16 steps, what
the seven phases taken as one event give (R6, R250, R251, R253 to R257). Spreading the event over steps is the model's
choice (log 12); this says that the choice loses nothing. -/
def Obligations.StepsOfATickMakeTheWholeTick : Prop :=
  ∀ (rest : List HostEvent) (s : State), s.atEvent .tick rest →
    ∃ k, 1 ≤ k ∧ k ≤ Config.ipt + 1 ∧
      Host.Core.run Sys2Proof.core k s = tick { s with events := rest } ∧
      Yields (tick { s with events := rest }) fun t => t.slots = 0 ∧ t.events = rest

/-- With `PC` out of range a running tick still runs its timers, reports `pc_oor`, and leaves `PC`, memory, registers
and display as they were, tick after tick (R254, R290; decision D7). -/
def Obligations.OutOfRangeTickOnlyRunsTheTimers : Prop :=
  ∀ s : State, s.running = true → 4094 < s.PC.toNat →
    Yields (tick s) fun t => t.pcOor = true ∧ t.renderReq = false ∧ t.redrawFlag = false ∧
      t.DT.toNat = s.DT.toNat - 1 ∧ t.ST.toNat = s.ST.toNat - 1 ∧
      Unchanged [.DT, .ST, .soundSignal, .redrawFlag, .renderReq, .pcOor, .keyJustPressed] s t

/-- The events SetRunning and the change of `compat_mode` set their one field (R258, R262; decisions D3, D29). -/
def Obligations.RunAndModeEventsSetOneField : Prop :=
  ∀ (rest : List HostEvent) (s : State),
    (∀ b, s.atEvent (.setRunning b) rest →
      Yields (step s) fun t => t.events = rest ∧ t.running = b ∧ Unchanged [.events, .running] s t) ∧
    ∀ m, s.atEvent (.setMode m) rest →
      Yields (step s) fun t => t.events = rest ∧ t.compatMode = m ∧ Unchanged [.events, .compatMode] s t

/-! ## Reset and load -/

/-- The event LoadProgram with at most 3584 bytes: the bytes at 0x200 and up, every other byte kept, `PC` 0x200, the
display cleared, running, `load_err` 0, and nothing else touched (R322). That the key wait and the redraw flag stay is
decision D22 (R324; log 17); that no length stays recorded is the model's choice (log 22). -/
def Obligations.LoadProgramCopiesAndRestarts : Prop :=
  ∀ (bytes : List Byte) (rest : List HostEvent) (s : State), s.atEvent (.loadProgram bytes) rest →
    bytes.length ≤ 3584 →
    Yields (step s) fun t => t.events = rest ∧ t.PC = 0x200 ∧ t.running = true ∧ t.loadErr = false ∧
      t.loadLength = none ∧
      (∀ y x, t.cell y x = false) ∧
      (∀ i (h : i < bytes.length), t.memRead (0x200 + i) = bytes[i]) ∧
      (∀ a, a < 4096 → (a < 0x200 ∨ 0x200 + bytes.length ≤ a) → t.memRead a = s.memRead a) ∧
      Unchanged [.events, .PC, .running, .loadErr, .loadLength, .disp, .mem] s t

/-- A load fails exactly above 3584 bytes; a failed load sets `load_err`, records the offered length and changes nothing
else (R280, R282, R323); after any other load `load_err` is 0 (R322). That the fault carries the length and `loadLength`
holds it is the model's choice (log 22). -/
def Obligations.OversizedLoadChangesNothing : Prop :=
  ∀ (bytes : List Byte) (rest : List HostEvent) (s : State), s.atEvent (.loadProgram bytes) rest →
    (loadProgram bytes s = .fault (.romTooLarge bytes.length) ↔ 3584 < bytes.length) ∧
    Yields (step s) fun t => t.events = rest ∧ (t.loadErr = true ↔ 3584 < bytes.length) ∧
      (3584 < bytes.length → t.loadLength = some bytes.length ∧ Unchanged [.events, .loadErr, .loadLength] s t)

/-- The event Initialize gives the whole tuple of R20 its reset value, from any state (R43, R320; the values R43 marks
"decided" are decision D21; that inputs and outputs stay is the model's choice, log 8). -/
def Obligations.InitializeResetsTheWholeState : Prop :=
  ∀ (rest : List HostEvent) (s : State), s.atEvent .init rest →
    Yields (step s) fun t => t.events = rest ∧ t.PC = 0x200 ∧ t.I = 0 ∧ t.SP = 0 ∧ t.DT = 0 ∧ t.ST = 0 ∧
      (∀ r, t.reg r = 0) ∧ (∀ k, t.slot k = 0) ∧ (∀ y x, t.cell y x = false) ∧ (∀ k, t.key k = false) ∧
      (∀ a, a < 4096 → t.memRead a =
        if Config.fontBase ≤ a ∧ a < Config.fontBase + 80 then Config.font.getD (a - Config.fontBase) 0 else 0) ∧
      t.keyJustPressed = false ∧ t.lastKey = 0 ∧ t.kwPhase = .waitPress ∧ t.kwKey = 0 ∧ t.running = false ∧
      t.redrawFlag = false ∧ t.soundSignal = .stop ∧
      Unchanged [.events, .PC, .I, .SP, .DT, .ST, .V, .stack, .disp, .keys, .mem, .keyJustPressed, .lastKey, .kwPhase,
        .kwKey, .running, .redrawFlag, .soundSignal] s t

/-- The state after reset: the values the spec states, entry point 0x200, and the glyph of `d` where FX29 finds it (R43,
R31, R321; the display, keypad, control and `I` values are decision D21). -/
def Obligations.ResetValues : Prop :=
  State.reset.PC = 0x200 ∧ State.reset.SP = 0 ∧ State.reset.DT = 0 ∧ State.reset.ST = 0 ∧ State.reset.I = 0 ∧
  (∀ r, State.reset.reg r = 0) ∧ (∀ k, State.reset.slot k = 0) ∧
  (∀ (d : Fin 16) (k : Fin 5), State.reset.memRead (Config.fontBase + 5 * d.val + k.val) =
    Config.font.getD (5 * d.val + k.val) 0) ∧
  (∀ a, a < 4096 → a < Config.fontBase ∨ Config.fontBase + 80 ≤ a → State.reset.memRead a = 0) ∧
  (∀ y x, State.reset.cell y x = false) ∧ (∀ k, State.reset.key k = false) ∧ State.reset.running = false ∧
  State.reset.soundSignal = .stop ∧ State.reset.kwPhase = .waitPress

/-! ## Rules of the whole machine -/

/-- Every instruction completes with a next state, but CALL with a full stack and RET with an empty one, and these two
raise their own fault (R120, R286, R288; decision D8). -/
def Obligations.InstructionsCompleteButForTheStack : Prop :=
  ∀ (i : Instr) (s : State),
    (∃ t, exec i s = .next t) ∨
    ((∃ nnn, i = .call nnn) ∧ s.SP.val = 16 ∧ exec i s = .fault .stackOverflow) ∨
    (i = .ret ∧ s.SP.val = 0 ∧ exec i s = .fault .stackUnderflow)

/-- No instruction changes what belongs to the host or the sequencer: key levels, edge, last key, running, mode, the
outputs, or the model's own fields but the draw count (R46, R33, R34, R37, R293). -/
def Obligations.NoInstructionTouchesTheHostsState : Prop :=
  ∀ (i : Instr) (s t : State), exec i s = .next t →
    Unchanged [.V, .PC, .I, .stack, .SP, .DT, .ST, .mem, .disp, .kwPhase, .kwKey, .redrawFlag, .soundSignal,
      .randCount] s t

/-- Who writes what: only the instructions the spec lists write memory, display, stack, `I`, a timer, the sound signal
or the key wait (R66, R25, R26, R28, R29, R32, R36, R38, R39; 00E0's redraw is decision D20, FX18's signal decision
D16). -/
def Obligations.EachSpaceHasItsOwnWriters : Prop :=
  ∀ (i : Instr) (s t : State), exec i s = .next t →
    ((∀ x, i ≠ .ldB x ∧ i ≠ .ldMemVx x) → Part.mem.same s t) ∧
    ((i ≠ .cls ∧ ∀ x y n, i ≠ .drw x y n) → Part.disp.same s t ∧ Part.redrawFlag.same s t) ∧
    ((∀ nnn, i ≠ .call nnn) → Part.stack.same s t) ∧
    ((i ≠ .ret ∧ ∀ nnn, i ≠ .call nnn) → Part.SP.same s t) ∧
    (((∀ nnn, i ≠ .ldI nnn) ∧ ∀ x, i ≠ .addI x ∧ i ≠ .ldF x ∧
      (s.compatMode.getLsbD 0 = true → i ≠ .ldMemVx x ∧ i ≠ .ldVxMem x)) → Part.I.same s t) ∧
    ((∀ x, i ≠ .ldDtVx x) → Part.DT.same s t) ∧
    ((∀ x, i ≠ .ldStVx x) → Part.ST.same s t ∧ Part.soundSignal.same s t) ∧
    ((∀ x, i ≠ .ldVxK x) → Part.kwPhase.same s t ∧ Part.kwKey.same s t)

/-- The instructions that write `V[15]` as a side effect are those of the list of R41, and those that do not name it as
their destination leave it alone. FX1E's limit 0x0FFF is decision D17. -/
def Obligations.FlagHasOnlyTheListedWriters : Prop :=
  ∀ (i : Instr) (s t : State), exec i s = .next t → t.reg 15 ≠ s.reg 15 →
    (s.compatMode.getLsbD 0 = true ∧ ∃ x y, i = .orReg x y ∨ i = .andReg x y ∨ i = .xorReg x y) ∨
    (∃ x y, i = .addReg x y ∨ i = .subReg x y ∨ i = .subnReg x y ∨ i = .shrReg x y ∨ i = .shlReg x y) ∨
    (∃ x y n, i = .drw x y n) ∨
    (s.compatMode.getLsbD 2 = true ∧ 0x0FFF < t.I.toNat ∧ ∃ x, i = .addI x) ∨
    (∃ y nn, i = .ldImm 15 nn ∨ i = .addImm 15 nn ∨ i = .ldReg 15 y ∨ i = .orReg 15 y ∨ i = .andReg 15 y ∨
      i = .xorReg 15 y ∨ i = .rnd 15 nn ∨ i = .ldVxDt 15 ∨ i = .ldVxK 15 ∨ i = .ldVxMem 15)

/-- Host events leave the program's registers, index and stack alone; only Initialize writes them, and timers move
only with a running tick or Initialize (R21, R25, R26, R28, R46). Tick counts among them because the step that takes it
runs phases 1 to 4 alone and its instructions follow one a step, the model's choice (log 12). -/
def Obligations.HostEventsLeaveTheRegistersAlone : Prop :=
  ∀ (e : HostEvent) (rest : List HostEvent) (s t : State), s.atEvent e rest → e ≠ .init → step s = .next t →
    Part.V.same s t ∧ Part.I.same s t ∧ Part.stack.same s t ∧ Part.SP.same s t ∧ Part.kwPhase.same s t ∧
    Part.kwKey.same s t ∧
    ((e ≠ .tick ∨ s.running = false) → Part.DT.same s t ∧ Part.ST.same s t) ∧
    ((∀ bytes, e ≠ .loadProgram bytes) → Part.PC.same s t ∧ Part.mem.same s t ∧ Part.disp.same s t)

/-- The mode changes what nine instructions do and no other: for every other instruction the outcome is the same in
every mode, but for the mode itself; and no instruction reads the MODERN bit (R9, R331; decision D3). -/
def Obligations.ModeMattersToNineInstructionsOnly : Prop :=
  ∀ (i : Instr) (m : BitVec 3) (s : State),
    (((∀ nnn, i ≠ .jpV0 nnn) ∧ (∀ x y, i ≠ .orReg x y ∧ i ≠ .andReg x y ∧ i ≠ .xorReg x y ∧ i ≠ .shrReg x y ∧
        i ≠ .shlReg x y) ∧ ∀ x, i ≠ .addI x ∧ i ≠ .ldMemVx x ∧ i ≠ .ldVxMem x) ∨
      (m.getLsbD 0 = s.compatMode.getLsbD 0 ∧ m.getLsbD 2 = s.compatMode.getLsbD 2)) →
    exec i { s with compatMode := m } = mapNext (fun t => { t with compatMode := m }) (exec i s)

/-- No instruction reads the sound timer: with another value in it every outcome is the same but for `ST`, which keeps
the value unless FX18 writes it (R29, R295). -/
def Obligations.SoundTimerIsNotReadable : Prop :=
  ∀ (i : Instr) (v : Byte) (s : State),
    exec i { s with ST := v } =
      mapNext (fun t => { t with ST := if ∃ x, i = .ldStVx x then t.ST else v }) (exec i s)

/-- A self-jump is a stable end of a run: executing it leaves the whole state as it is (R125, R328; decision D30). -/
def Obligations.SelfJumpIsStable : Prop :=
  ∀ s : State, s.atSelfJump → executeOne s = .next s

/-- Every step keeps the invariant: canonical memory, the bounds of R24 on `PC` and the saved return addresses, the
bounds on the tick under way, that a recorded fault is a stack fault, and that a length is recorded exactly
where the last load failed (R24, R253, R280; log 12, 13, 22). -/
def Obligations.EveryStepKeepsTheInvariant : Prop :=
  ∀ s t : State, s.Inv → step s = .next t → t.Inv

/-- The state after reset meets the invariant. -/
def Obligations.ResetMeetsTheInvariant : Prop := State.reset.Inv

/-! ## The record of a failed load -/

/-- A load that fails records the offered length (R280), and no step but one that takes LoadProgram changes what is
recorded; where the record is kept, and that a load that succeeds leaves none, is the model's choice (log 22). -/
def Obligations.FailedLoadRecordsItsLength : Prop :=
  (∀ (bytes : List Byte) (rest : List HostEvent) (s : State), s.atEvent (.loadProgram bytes) rest →
    Yields (step s) fun t => t.loadLength = if 3584 < bytes.length then some bytes.length else none) ∧
  ∀ s t : State, step s = .next t → t.loadLength ≠ s.loadLength → ∃ bytes rest, s.atEvent (.loadProgram bytes) rest
end

