-- ==== Sys2Proof/Laws/Decode.lean ====
section
/-! SUPPORT. The fields of a packed word are the fields it was packed from (`30_encoding.md` R91). -/

namespace Sys2Proof

theorem fieldFam_toNat (w : Word) : (fieldFam w).toNat = w.toNat / 4096 := by
  have := w.isLt
  simp only [fieldFam, BitVec.extractLsb'_toNat, Nat.shiftRight_eq_div_pow]; omega

theorem fieldX_val (w : Word) : (fieldX w).val = w.toNat / 256 % 16 := by
  simp [fieldX, Nat.shiftRight_eq_div_pow]

theorem fieldY_val (w : Word) : (fieldY w).val = w.toNat / 16 % 16 := by
  simp [fieldY, Nat.shiftRight_eq_div_pow]

theorem fieldN_toNat (w : Word) : (fieldN w).toNat = w.toNat % 16 := by
  simp [fieldN, BitVec.extractLsb'_toNat]

theorem fieldNn_toNat (w : Word) : (fieldNn w).toNat = w.toNat % 256 := by
  simp [fieldNn, BitVec.extractLsb'_toNat]

theorem fieldNnn_toNat (w : Word) : (fieldNnn w).toNat = w.toNat % 4096 := by
  simp [fieldNnn, BitVec.extractLsb'_toNat]

theorem packXYN_toNat {fam : Nat} (h : fam < 16) (x y : Reg) (n : Nibble) :
    (packXYN fam x y n).toNat = fam * 4096 + x.val * 256 + y.val * 16 + n.toNat := by
  simp only [packXYN, BitVec.toNat_ofNat]; omega

theorem packXNn_toNat {fam : Nat} (h : fam < 16) (x : Reg) (nn : Byte) :
    (packXNn fam x nn).toNat = fam * 4096 + x.val * 256 + nn.toNat := by
  simp only [packXNn, BitVec.toNat_ofNat]; omega

theorem packNnn_toNat {fam : Nat} (h : fam < 16) (nnn : Addr12) :
    (packNnn fam nnn).toNat = fam * 4096 + nnn.toNat := by
  simp only [packNnn, BitVec.toNat_ofNat]; omega

theorem fields_packXYN {fam : Nat} (h : fam < 16) (x y : Reg) (n : Nibble) :
    (fieldFam (packXYN fam x y n)).toNat = fam ∧ fieldX (packXYN fam x y n) = x ∧
      fieldY (packXYN fam x y n) = y ∧ fieldN (packXYN fam x y n) = n := by
  refine ⟨?_, Fin.ext ?_, Fin.ext ?_, BitVec.eq_of_toNat_eq ?_⟩ <;>
    simp only [fieldFam_toNat, fieldX_val, fieldY_val, fieldN_toNat, packXYN_toNat h] <;> omega

theorem fields_packXNn {fam : Nat} (h : fam < 16) (x : Reg) (nn : Byte) :
    (fieldFam (packXNn fam x nn)).toNat = fam ∧ fieldX (packXNn fam x nn) = x ∧
      fieldNn (packXNn fam x nn) = nn := by
  refine ⟨?_, Fin.ext ?_, BitVec.eq_of_toNat_eq ?_⟩ <;>
    simp only [fieldFam_toNat, fieldX_val, fieldNn_toNat, packXNn_toNat h] <;> omega

theorem fields_packNnn {fam : Nat} (h : fam < 16) (nnn : Addr12) :
    (fieldFam (packNnn fam nnn)).toNat = fam ∧ fieldNnn (packNnn fam nnn) = nnn := by
  refine ⟨?_, BitVec.eq_of_toNat_eq ?_⟩ <;>
    simp only [fieldFam_toNat, fieldNnn_toNat, packNnn_toNat h] <;> omega

/-- A family 0 word from `nnn` is CLS or RET only for their own `nnn`. -/
theorem packNnn_zero_eq {nnn : Addr12} {c : Addr12} : packNnn 0 nnn = packNnn 0 c ↔ nnn = c := by
  constructor
  · intro h
    have := congrArg BitVec.toNat h
    simp only [packNnn_toNat (show 0 < 16 by omega)] at this
    exact BitVec.eq_of_toNat_eq (by omega)
  · rintro rfl; rfl

end Sys2Proof
end

