-- ==== Sys2Proof/Laws/State.lean ====
section
/-! SUPPORT. One lemma per field per update of the state, true by rfl: later proofs unfold no record update. The
derived updates (`advance`, `skip`, `setFlag`, ...) are rewritten to these. -/

namespace Sys2Proof.Machine

variable (s : State)


/-! ### setReg -/

@[simp] theorem State.setReg_V (q : Reg) (v : Byte) : (s.setReg q v).V = s.V.set q.val v q.isLt := rfl
@[simp] theorem State.setReg_PC (q : Reg) (v : Byte) : (s.setReg q v).PC = s.PC := rfl
@[simp] theorem State.setReg_I (q : Reg) (v : Byte) : (s.setReg q v).I = s.I := rfl
@[simp] theorem State.setReg_stack (q : Reg) (v : Byte) : (s.setReg q v).stack = s.stack := rfl
@[simp] theorem State.setReg_SP (q : Reg) (v : Byte) : (s.setReg q v).SP = s.SP := rfl
@[simp] theorem State.setReg_DT (q : Reg) (v : Byte) : (s.setReg q v).DT = s.DT := rfl
@[simp] theorem State.setReg_ST (q : Reg) (v : Byte) : (s.setReg q v).ST = s.ST := rfl
@[simp] theorem State.setReg_mem (q : Reg) (v : Byte) : (s.setReg q v).mem = s.mem := rfl
@[simp] theorem State.setReg_disp (q : Reg) (v : Byte) : (s.setReg q v).disp = s.disp := rfl
@[simp] theorem State.setReg_keys (q : Reg) (v : Byte) : (s.setReg q v).keys = s.keys := rfl
@[simp] theorem State.setReg_keyJustPressed (q : Reg) (v : Byte) : (s.setReg q v).keyJustPressed = s.keyJustPressed := rfl
@[simp] theorem State.setReg_lastKey (q : Reg) (v : Byte) : (s.setReg q v).lastKey = s.lastKey := rfl
@[simp] theorem State.setReg_kwPhase (q : Reg) (v : Byte) : (s.setReg q v).kwPhase = s.kwPhase := rfl
@[simp] theorem State.setReg_kwKey (q : Reg) (v : Byte) : (s.setReg q v).kwKey = s.kwKey := rfl
@[simp] theorem State.setReg_running (q : Reg) (v : Byte) : (s.setReg q v).running = s.running := rfl
@[simp] theorem State.setReg_redrawFlag (q : Reg) (v : Byte) : (s.setReg q v).redrawFlag = s.redrawFlag := rfl
@[simp] theorem State.setReg_soundSignal (q : Reg) (v : Byte) : (s.setReg q v).soundSignal = s.soundSignal := rfl
@[simp] theorem State.setReg_compatMode (q : Reg) (v : Byte) : (s.setReg q v).compatMode = s.compatMode := rfl
@[simp] theorem State.setReg_renderReq (q : Reg) (v : Byte) : (s.setReg q v).renderReq = s.renderReq := rfl
@[simp] theorem State.setReg_pcOor (q : Reg) (v : Byte) : (s.setReg q v).pcOor = s.pcOor := rfl
@[simp] theorem State.setReg_loadErr (q : Reg) (v : Byte) : (s.setReg q v).loadErr = s.loadErr := rfl
@[simp] theorem State.setReg_loadLength (q : Reg) (v : Byte) : (s.setReg q v).loadLength = s.loadLength := rfl
@[simp] theorem State.setReg_slots (q : Reg) (v : Byte) : (s.setReg q v).slots = s.slots := rfl
@[simp] theorem State.setReg_faulted (q : Reg) (v : Byte) : (s.setReg q v).faulted = s.faulted := rfl
@[simp] theorem State.setReg_events (q : Reg) (v : Byte) : (s.setReg q v).events = s.events := rfl
@[simp] theorem State.setReg_randCount (q : Reg) (v : Byte) : (s.setReg q v).randCount = s.randCount := rfl
@[simp] theorem State.setReg_memRead (q : Reg) (v : Byte) (a : Nat) : (s.setReg q v).memRead a = s.memRead a := rfl
@[simp] theorem State.setReg_cell (q : Reg) (v : Byte) (y : Fin 32) (x : Fin 64) : (s.setReg q v).cell y x = s.cell y x := rfl
@[simp] theorem State.setReg_key (q : Reg) (v : Byte) (k : Fin 16) : (s.setReg q v).key k = s.key k := rfl
@[simp] theorem State.setReg_slot (q : Reg) (v : Byte) (k : Fin 16) : (s.setReg q v).slot k = s.slot k := rfl
@[simp] theorem State.setReg_cosmac (q : Reg) (v : Byte) : (s.setReg q v).cosmac = s.cosmac := rfl
@[simp] theorem State.setReg_amiga (q : Reg) (v : Byte) : (s.setReg q v).amiga = s.amiga := rfl

/-! ### setI -/

@[simp] theorem State.setI_V (v : Word) : (s.setI v).V = s.V := rfl
@[simp] theorem State.setI_PC (v : Word) : (s.setI v).PC = s.PC := rfl
@[simp] theorem State.setI_I (v : Word) : (s.setI v).I = v := rfl
@[simp] theorem State.setI_stack (v : Word) : (s.setI v).stack = s.stack := rfl
@[simp] theorem State.setI_SP (v : Word) : (s.setI v).SP = s.SP := rfl
@[simp] theorem State.setI_DT (v : Word) : (s.setI v).DT = s.DT := rfl
@[simp] theorem State.setI_ST (v : Word) : (s.setI v).ST = s.ST := rfl
@[simp] theorem State.setI_mem (v : Word) : (s.setI v).mem = s.mem := rfl
@[simp] theorem State.setI_disp (v : Word) : (s.setI v).disp = s.disp := rfl
@[simp] theorem State.setI_keys (v : Word) : (s.setI v).keys = s.keys := rfl
@[simp] theorem State.setI_keyJustPressed (v : Word) : (s.setI v).keyJustPressed = s.keyJustPressed := rfl
@[simp] theorem State.setI_lastKey (v : Word) : (s.setI v).lastKey = s.lastKey := rfl
@[simp] theorem State.setI_kwPhase (v : Word) : (s.setI v).kwPhase = s.kwPhase := rfl
@[simp] theorem State.setI_kwKey (v : Word) : (s.setI v).kwKey = s.kwKey := rfl
@[simp] theorem State.setI_running (v : Word) : (s.setI v).running = s.running := rfl
@[simp] theorem State.setI_redrawFlag (v : Word) : (s.setI v).redrawFlag = s.redrawFlag := rfl
@[simp] theorem State.setI_soundSignal (v : Word) : (s.setI v).soundSignal = s.soundSignal := rfl
@[simp] theorem State.setI_compatMode (v : Word) : (s.setI v).compatMode = s.compatMode := rfl
@[simp] theorem State.setI_renderReq (v : Word) : (s.setI v).renderReq = s.renderReq := rfl
@[simp] theorem State.setI_pcOor (v : Word) : (s.setI v).pcOor = s.pcOor := rfl
@[simp] theorem State.setI_loadErr (v : Word) : (s.setI v).loadErr = s.loadErr := rfl
@[simp] theorem State.setI_loadLength (v : Word) : (s.setI v).loadLength = s.loadLength := rfl
@[simp] theorem State.setI_slots (v : Word) : (s.setI v).slots = s.slots := rfl
@[simp] theorem State.setI_faulted (v : Word) : (s.setI v).faulted = s.faulted := rfl
@[simp] theorem State.setI_events (v : Word) : (s.setI v).events = s.events := rfl
@[simp] theorem State.setI_randCount (v : Word) : (s.setI v).randCount = s.randCount := rfl
@[simp] theorem State.setI_reg (v : Word) (r : Reg) : (s.setI v).reg r = s.reg r := rfl
@[simp] theorem State.setI_memRead (v : Word) (a : Nat) : (s.setI v).memRead a = s.memRead a := rfl
@[simp] theorem State.setI_cell (v : Word) (y : Fin 32) (x : Fin 64) : (s.setI v).cell y x = s.cell y x := rfl
@[simp] theorem State.setI_key (v : Word) (k : Fin 16) : (s.setI v).key k = s.key k := rfl
@[simp] theorem State.setI_slot (v : Word) (k : Fin 16) : (s.setI v).slot k = s.slot k := rfl
@[simp] theorem State.setI_cosmac (v : Word) : (s.setI v).cosmac = s.cosmac := rfl
@[simp] theorem State.setI_amiga (v : Word) : (s.setI v).amiga = s.amiga := rfl

/-! ### setDT -/

@[simp] theorem State.setDT_V (v : Byte) : (s.setDT v).V = s.V := rfl
@[simp] theorem State.setDT_PC (v : Byte) : (s.setDT v).PC = s.PC := rfl
@[simp] theorem State.setDT_I (v : Byte) : (s.setDT v).I = s.I := rfl
@[simp] theorem State.setDT_stack (v : Byte) : (s.setDT v).stack = s.stack := rfl
@[simp] theorem State.setDT_SP (v : Byte) : (s.setDT v).SP = s.SP := rfl
@[simp] theorem State.setDT_DT (v : Byte) : (s.setDT v).DT = v := rfl
@[simp] theorem State.setDT_ST (v : Byte) : (s.setDT v).ST = s.ST := rfl
@[simp] theorem State.setDT_mem (v : Byte) : (s.setDT v).mem = s.mem := rfl
@[simp] theorem State.setDT_disp (v : Byte) : (s.setDT v).disp = s.disp := rfl
@[simp] theorem State.setDT_keys (v : Byte) : (s.setDT v).keys = s.keys := rfl
@[simp] theorem State.setDT_keyJustPressed (v : Byte) : (s.setDT v).keyJustPressed = s.keyJustPressed := rfl
@[simp] theorem State.setDT_lastKey (v : Byte) : (s.setDT v).lastKey = s.lastKey := rfl
@[simp] theorem State.setDT_kwPhase (v : Byte) : (s.setDT v).kwPhase = s.kwPhase := rfl
@[simp] theorem State.setDT_kwKey (v : Byte) : (s.setDT v).kwKey = s.kwKey := rfl
@[simp] theorem State.setDT_running (v : Byte) : (s.setDT v).running = s.running := rfl
@[simp] theorem State.setDT_redrawFlag (v : Byte) : (s.setDT v).redrawFlag = s.redrawFlag := rfl
@[simp] theorem State.setDT_soundSignal (v : Byte) : (s.setDT v).soundSignal = s.soundSignal := rfl
@[simp] theorem State.setDT_compatMode (v : Byte) : (s.setDT v).compatMode = s.compatMode := rfl
@[simp] theorem State.setDT_renderReq (v : Byte) : (s.setDT v).renderReq = s.renderReq := rfl
@[simp] theorem State.setDT_pcOor (v : Byte) : (s.setDT v).pcOor = s.pcOor := rfl
@[simp] theorem State.setDT_loadErr (v : Byte) : (s.setDT v).loadErr = s.loadErr := rfl
@[simp] theorem State.setDT_loadLength (v : Byte) : (s.setDT v).loadLength = s.loadLength := rfl
@[simp] theorem State.setDT_slots (v : Byte) : (s.setDT v).slots = s.slots := rfl
@[simp] theorem State.setDT_faulted (v : Byte) : (s.setDT v).faulted = s.faulted := rfl
@[simp] theorem State.setDT_events (v : Byte) : (s.setDT v).events = s.events := rfl
@[simp] theorem State.setDT_randCount (v : Byte) : (s.setDT v).randCount = s.randCount := rfl
@[simp] theorem State.setDT_reg (v : Byte) (r : Reg) : (s.setDT v).reg r = s.reg r := rfl
@[simp] theorem State.setDT_memRead (v : Byte) (a : Nat) : (s.setDT v).memRead a = s.memRead a := rfl
@[simp] theorem State.setDT_cell (v : Byte) (y : Fin 32) (x : Fin 64) : (s.setDT v).cell y x = s.cell y x := rfl
@[simp] theorem State.setDT_key (v : Byte) (k : Fin 16) : (s.setDT v).key k = s.key k := rfl
@[simp] theorem State.setDT_slot (v : Byte) (k : Fin 16) : (s.setDT v).slot k = s.slot k := rfl
@[simp] theorem State.setDT_cosmac (v : Byte) : (s.setDT v).cosmac = s.cosmac := rfl
@[simp] theorem State.setDT_amiga (v : Byte) : (s.setDT v).amiga = s.amiga := rfl

/-! ### setST -/

@[simp] theorem State.setST_V (v : Byte) : (s.setST v).V = s.V := rfl
@[simp] theorem State.setST_PC (v : Byte) : (s.setST v).PC = s.PC := rfl
@[simp] theorem State.setST_I (v : Byte) : (s.setST v).I = s.I := rfl
@[simp] theorem State.setST_stack (v : Byte) : (s.setST v).stack = s.stack := rfl
@[simp] theorem State.setST_SP (v : Byte) : (s.setST v).SP = s.SP := rfl
@[simp] theorem State.setST_DT (v : Byte) : (s.setST v).DT = s.DT := rfl
@[simp] theorem State.setST_ST (v : Byte) : (s.setST v).ST = v := rfl
@[simp] theorem State.setST_mem (v : Byte) : (s.setST v).mem = s.mem := rfl
@[simp] theorem State.setST_disp (v : Byte) : (s.setST v).disp = s.disp := rfl
@[simp] theorem State.setST_keys (v : Byte) : (s.setST v).keys = s.keys := rfl
@[simp] theorem State.setST_keyJustPressed (v : Byte) : (s.setST v).keyJustPressed = s.keyJustPressed := rfl
@[simp] theorem State.setST_lastKey (v : Byte) : (s.setST v).lastKey = s.lastKey := rfl
@[simp] theorem State.setST_kwPhase (v : Byte) : (s.setST v).kwPhase = s.kwPhase := rfl
@[simp] theorem State.setST_kwKey (v : Byte) : (s.setST v).kwKey = s.kwKey := rfl
@[simp] theorem State.setST_running (v : Byte) : (s.setST v).running = s.running := rfl
@[simp] theorem State.setST_redrawFlag (v : Byte) : (s.setST v).redrawFlag = s.redrawFlag := rfl
@[simp] theorem State.setST_soundSignal (v : Byte) : (s.setST v).soundSignal = s.soundSignal := rfl
@[simp] theorem State.setST_compatMode (v : Byte) : (s.setST v).compatMode = s.compatMode := rfl
@[simp] theorem State.setST_renderReq (v : Byte) : (s.setST v).renderReq = s.renderReq := rfl
@[simp] theorem State.setST_pcOor (v : Byte) : (s.setST v).pcOor = s.pcOor := rfl
@[simp] theorem State.setST_loadErr (v : Byte) : (s.setST v).loadErr = s.loadErr := rfl
@[simp] theorem State.setST_loadLength (v : Byte) : (s.setST v).loadLength = s.loadLength := rfl
@[simp] theorem State.setST_slots (v : Byte) : (s.setST v).slots = s.slots := rfl
@[simp] theorem State.setST_faulted (v : Byte) : (s.setST v).faulted = s.faulted := rfl
@[simp] theorem State.setST_events (v : Byte) : (s.setST v).events = s.events := rfl
@[simp] theorem State.setST_randCount (v : Byte) : (s.setST v).randCount = s.randCount := rfl
@[simp] theorem State.setST_reg (v : Byte) (r : Reg) : (s.setST v).reg r = s.reg r := rfl
@[simp] theorem State.setST_memRead (v : Byte) (a : Nat) : (s.setST v).memRead a = s.memRead a := rfl
@[simp] theorem State.setST_cell (v : Byte) (y : Fin 32) (x : Fin 64) : (s.setST v).cell y x = s.cell y x := rfl
@[simp] theorem State.setST_key (v : Byte) (k : Fin 16) : (s.setST v).key k = s.key k := rfl
@[simp] theorem State.setST_slot (v : Byte) (k : Fin 16) : (s.setST v).slot k = s.slot k := rfl
@[simp] theorem State.setST_cosmac (v : Byte) : (s.setST v).cosmac = s.cosmac := rfl
@[simp] theorem State.setST_amiga (v : Byte) : (s.setST v).amiga = s.amiga := rfl

/-! ### setSound -/

@[simp] theorem State.setSound_V (v : Sound) : (s.setSound v).V = s.V := rfl
@[simp] theorem State.setSound_PC (v : Sound) : (s.setSound v).PC = s.PC := rfl
@[simp] theorem State.setSound_I (v : Sound) : (s.setSound v).I = s.I := rfl
@[simp] theorem State.setSound_stack (v : Sound) : (s.setSound v).stack = s.stack := rfl
@[simp] theorem State.setSound_SP (v : Sound) : (s.setSound v).SP = s.SP := rfl
@[simp] theorem State.setSound_DT (v : Sound) : (s.setSound v).DT = s.DT := rfl
@[simp] theorem State.setSound_ST (v : Sound) : (s.setSound v).ST = s.ST := rfl
@[simp] theorem State.setSound_mem (v : Sound) : (s.setSound v).mem = s.mem := rfl
@[simp] theorem State.setSound_disp (v : Sound) : (s.setSound v).disp = s.disp := rfl
@[simp] theorem State.setSound_keys (v : Sound) : (s.setSound v).keys = s.keys := rfl
@[simp] theorem State.setSound_keyJustPressed (v : Sound) : (s.setSound v).keyJustPressed = s.keyJustPressed := rfl
@[simp] theorem State.setSound_lastKey (v : Sound) : (s.setSound v).lastKey = s.lastKey := rfl
@[simp] theorem State.setSound_kwPhase (v : Sound) : (s.setSound v).kwPhase = s.kwPhase := rfl
@[simp] theorem State.setSound_kwKey (v : Sound) : (s.setSound v).kwKey = s.kwKey := rfl
@[simp] theorem State.setSound_running (v : Sound) : (s.setSound v).running = s.running := rfl
@[simp] theorem State.setSound_redrawFlag (v : Sound) : (s.setSound v).redrawFlag = s.redrawFlag := rfl
@[simp] theorem State.setSound_soundSignal (v : Sound) : (s.setSound v).soundSignal = v := rfl
@[simp] theorem State.setSound_compatMode (v : Sound) : (s.setSound v).compatMode = s.compatMode := rfl
@[simp] theorem State.setSound_renderReq (v : Sound) : (s.setSound v).renderReq = s.renderReq := rfl
@[simp] theorem State.setSound_pcOor (v : Sound) : (s.setSound v).pcOor = s.pcOor := rfl
@[simp] theorem State.setSound_loadErr (v : Sound) : (s.setSound v).loadErr = s.loadErr := rfl
@[simp] theorem State.setSound_loadLength (v : Sound) : (s.setSound v).loadLength = s.loadLength := rfl
@[simp] theorem State.setSound_slots (v : Sound) : (s.setSound v).slots = s.slots := rfl
@[simp] theorem State.setSound_faulted (v : Sound) : (s.setSound v).faulted = s.faulted := rfl
@[simp] theorem State.setSound_events (v : Sound) : (s.setSound v).events = s.events := rfl
@[simp] theorem State.setSound_randCount (v : Sound) : (s.setSound v).randCount = s.randCount := rfl
@[simp] theorem State.setSound_reg (v : Sound) (r : Reg) : (s.setSound v).reg r = s.reg r := rfl
@[simp] theorem State.setSound_memRead (v : Sound) (a : Nat) : (s.setSound v).memRead a = s.memRead a := rfl
@[simp] theorem State.setSound_cell (v : Sound) (y : Fin 32) (x : Fin 64) : (s.setSound v).cell y x = s.cell y x := rfl
@[simp] theorem State.setSound_key (v : Sound) (k : Fin 16) : (s.setSound v).key k = s.key k := rfl
@[simp] theorem State.setSound_slot (v : Sound) (k : Fin 16) : (s.setSound v).slot k = s.slot k := rfl
@[simp] theorem State.setSound_cosmac (v : Sound) : (s.setSound v).cosmac = s.cosmac := rfl
@[simp] theorem State.setSound_amiga (v : Sound) : (s.setSound v).amiga = s.amiga := rfl

/-! ### setDisp -/

@[simp] theorem State.setDisp_V (d : Display) : (s.setDisp d).V = s.V := rfl
@[simp] theorem State.setDisp_PC (d : Display) : (s.setDisp d).PC = s.PC := rfl
@[simp] theorem State.setDisp_I (d : Display) : (s.setDisp d).I = s.I := rfl
@[simp] theorem State.setDisp_stack (d : Display) : (s.setDisp d).stack = s.stack := rfl
@[simp] theorem State.setDisp_SP (d : Display) : (s.setDisp d).SP = s.SP := rfl
@[simp] theorem State.setDisp_DT (d : Display) : (s.setDisp d).DT = s.DT := rfl
@[simp] theorem State.setDisp_ST (d : Display) : (s.setDisp d).ST = s.ST := rfl
@[simp] theorem State.setDisp_mem (d : Display) : (s.setDisp d).mem = s.mem := rfl
@[simp] theorem State.setDisp_disp (d : Display) : (s.setDisp d).disp = d := rfl
@[simp] theorem State.setDisp_keys (d : Display) : (s.setDisp d).keys = s.keys := rfl
@[simp] theorem State.setDisp_keyJustPressed (d : Display) : (s.setDisp d).keyJustPressed = s.keyJustPressed := rfl
@[simp] theorem State.setDisp_lastKey (d : Display) : (s.setDisp d).lastKey = s.lastKey := rfl
@[simp] theorem State.setDisp_kwPhase (d : Display) : (s.setDisp d).kwPhase = s.kwPhase := rfl
@[simp] theorem State.setDisp_kwKey (d : Display) : (s.setDisp d).kwKey = s.kwKey := rfl
@[simp] theorem State.setDisp_running (d : Display) : (s.setDisp d).running = s.running := rfl
@[simp] theorem State.setDisp_redrawFlag (d : Display) : (s.setDisp d).redrawFlag = true := rfl
@[simp] theorem State.setDisp_soundSignal (d : Display) : (s.setDisp d).soundSignal = s.soundSignal := rfl
@[simp] theorem State.setDisp_compatMode (d : Display) : (s.setDisp d).compatMode = s.compatMode := rfl
@[simp] theorem State.setDisp_renderReq (d : Display) : (s.setDisp d).renderReq = s.renderReq := rfl
@[simp] theorem State.setDisp_pcOor (d : Display) : (s.setDisp d).pcOor = s.pcOor := rfl
@[simp] theorem State.setDisp_loadErr (d : Display) : (s.setDisp d).loadErr = s.loadErr := rfl
@[simp] theorem State.setDisp_loadLength (d : Display) : (s.setDisp d).loadLength = s.loadLength := rfl
@[simp] theorem State.setDisp_slots (d : Display) : (s.setDisp d).slots = s.slots := rfl
@[simp] theorem State.setDisp_faulted (d : Display) : (s.setDisp d).faulted = s.faulted := rfl
@[simp] theorem State.setDisp_events (d : Display) : (s.setDisp d).events = s.events := rfl
@[simp] theorem State.setDisp_randCount (d : Display) : (s.setDisp d).randCount = s.randCount := rfl
@[simp] theorem State.setDisp_reg (d : Display) (r : Reg) : (s.setDisp d).reg r = s.reg r := rfl
@[simp] theorem State.setDisp_memRead (d : Display) (a : Nat) : (s.setDisp d).memRead a = s.memRead a := rfl
@[simp] theorem State.setDisp_key (d : Display) (k : Fin 16) : (s.setDisp d).key k = s.key k := rfl
@[simp] theorem State.setDisp_slot (d : Display) (k : Fin 16) : (s.setDisp d).slot k = s.slot k := rfl
@[simp] theorem State.setDisp_cosmac (d : Display) : (s.setDisp d).cosmac = s.cosmac := rfl
@[simp] theorem State.setDisp_amiga (d : Display) : (s.setDisp d).amiga = s.amiga := rfl

/-! ### setKeyWait -/

@[simp] theorem State.setKeyWait_V (p : KwPhase) (q : Fin 16) : (s.setKeyWait p q).V = s.V := rfl
@[simp] theorem State.setKeyWait_PC (p : KwPhase) (q : Fin 16) : (s.setKeyWait p q).PC = s.PC := rfl
@[simp] theorem State.setKeyWait_I (p : KwPhase) (q : Fin 16) : (s.setKeyWait p q).I = s.I := rfl
@[simp] theorem State.setKeyWait_stack (p : KwPhase) (q : Fin 16) : (s.setKeyWait p q).stack = s.stack := rfl
@[simp] theorem State.setKeyWait_SP (p : KwPhase) (q : Fin 16) : (s.setKeyWait p q).SP = s.SP := rfl
@[simp] theorem State.setKeyWait_DT (p : KwPhase) (q : Fin 16) : (s.setKeyWait p q).DT = s.DT := rfl
@[simp] theorem State.setKeyWait_ST (p : KwPhase) (q : Fin 16) : (s.setKeyWait p q).ST = s.ST := rfl
@[simp] theorem State.setKeyWait_mem (p : KwPhase) (q : Fin 16) : (s.setKeyWait p q).mem = s.mem := rfl
@[simp] theorem State.setKeyWait_disp (p : KwPhase) (q : Fin 16) : (s.setKeyWait p q).disp = s.disp := rfl
@[simp] theorem State.setKeyWait_keys (p : KwPhase) (q : Fin 16) : (s.setKeyWait p q).keys = s.keys := rfl
@[simp] theorem State.setKeyWait_keyJustPressed (p : KwPhase) (q : Fin 16) : (s.setKeyWait p q).keyJustPressed = s.keyJustPressed := rfl
@[simp] theorem State.setKeyWait_lastKey (p : KwPhase) (q : Fin 16) : (s.setKeyWait p q).lastKey = s.lastKey := rfl
@[simp] theorem State.setKeyWait_kwPhase (p : KwPhase) (q : Fin 16) : (s.setKeyWait p q).kwPhase = p := rfl
@[simp] theorem State.setKeyWait_kwKey (p : KwPhase) (q : Fin 16) : (s.setKeyWait p q).kwKey = q := rfl
@[simp] theorem State.setKeyWait_running (p : KwPhase) (q : Fin 16) : (s.setKeyWait p q).running = s.running := rfl
@[simp] theorem State.setKeyWait_redrawFlag (p : KwPhase) (q : Fin 16) : (s.setKeyWait p q).redrawFlag = s.redrawFlag := rfl
@[simp] theorem State.setKeyWait_soundSignal (p : KwPhase) (q : Fin 16) : (s.setKeyWait p q).soundSignal = s.soundSignal := rfl
@[simp] theorem State.setKeyWait_compatMode (p : KwPhase) (q : Fin 16) : (s.setKeyWait p q).compatMode = s.compatMode := rfl
@[simp] theorem State.setKeyWait_renderReq (p : KwPhase) (q : Fin 16) : (s.setKeyWait p q).renderReq = s.renderReq := rfl
@[simp] theorem State.setKeyWait_pcOor (p : KwPhase) (q : Fin 16) : (s.setKeyWait p q).pcOor = s.pcOor := rfl
@[simp] theorem State.setKeyWait_loadErr (p : KwPhase) (q : Fin 16) : (s.setKeyWait p q).loadErr = s.loadErr := rfl
@[simp] theorem State.setKeyWait_loadLength (p : KwPhase) (q : Fin 16) : (s.setKeyWait p q).loadLength = s.loadLength := rfl
@[simp] theorem State.setKeyWait_slots (p : KwPhase) (q : Fin 16) : (s.setKeyWait p q).slots = s.slots := rfl
@[simp] theorem State.setKeyWait_faulted (p : KwPhase) (q : Fin 16) : (s.setKeyWait p q).faulted = s.faulted := rfl
@[simp] theorem State.setKeyWait_events (p : KwPhase) (q : Fin 16) : (s.setKeyWait p q).events = s.events := rfl
@[simp] theorem State.setKeyWait_randCount (p : KwPhase) (q : Fin 16) : (s.setKeyWait p q).randCount = s.randCount := rfl
@[simp] theorem State.setKeyWait_reg (p : KwPhase) (q : Fin 16) (r : Reg) : (s.setKeyWait p q).reg r = s.reg r := rfl
@[simp] theorem State.setKeyWait_memRead (p : KwPhase) (q : Fin 16) (a : Nat) : (s.setKeyWait p q).memRead a = s.memRead a := rfl
@[simp] theorem State.setKeyWait_cell (p : KwPhase) (q : Fin 16) (y : Fin 32) (x : Fin 64) : (s.setKeyWait p q).cell y x = s.cell y x := rfl
@[simp] theorem State.setKeyWait_key (p : KwPhase) (q : Fin 16) (k : Fin 16) : (s.setKeyWait p q).key k = s.key k := rfl
@[simp] theorem State.setKeyWait_slot (p : KwPhase) (q : Fin 16) (k : Fin 16) : (s.setKeyWait p q).slot k = s.slot k := rfl
@[simp] theorem State.setKeyWait_cosmac (p : KwPhase) (q : Fin 16) : (s.setKeyWait p q).cosmac = s.cosmac := rfl
@[simp] theorem State.setKeyWait_amiga (p : KwPhase) (q : Fin 16) : (s.setKeyWait p q).amiga = s.amiga := rfl

/-! ### drawn -/

@[simp] theorem State.drawn_V : (s.drawn).V = s.V := rfl
@[simp] theorem State.drawn_PC : (s.drawn).PC = s.PC := rfl
@[simp] theorem State.drawn_I : (s.drawn).I = s.I := rfl
@[simp] theorem State.drawn_stack : (s.drawn).stack = s.stack := rfl
@[simp] theorem State.drawn_SP : (s.drawn).SP = s.SP := rfl
@[simp] theorem State.drawn_DT : (s.drawn).DT = s.DT := rfl
@[simp] theorem State.drawn_ST : (s.drawn).ST = s.ST := rfl
@[simp] theorem State.drawn_mem : (s.drawn).mem = s.mem := rfl
@[simp] theorem State.drawn_disp : (s.drawn).disp = s.disp := rfl
@[simp] theorem State.drawn_keys : (s.drawn).keys = s.keys := rfl
@[simp] theorem State.drawn_keyJustPressed : (s.drawn).keyJustPressed = s.keyJustPressed := rfl
@[simp] theorem State.drawn_lastKey : (s.drawn).lastKey = s.lastKey := rfl
@[simp] theorem State.drawn_kwPhase : (s.drawn).kwPhase = s.kwPhase := rfl
@[simp] theorem State.drawn_kwKey : (s.drawn).kwKey = s.kwKey := rfl
@[simp] theorem State.drawn_running : (s.drawn).running = s.running := rfl
@[simp] theorem State.drawn_redrawFlag : (s.drawn).redrawFlag = s.redrawFlag := rfl
@[simp] theorem State.drawn_soundSignal : (s.drawn).soundSignal = s.soundSignal := rfl
@[simp] theorem State.drawn_compatMode : (s.drawn).compatMode = s.compatMode := rfl
@[simp] theorem State.drawn_renderReq : (s.drawn).renderReq = s.renderReq := rfl
@[simp] theorem State.drawn_pcOor : (s.drawn).pcOor = s.pcOor := rfl
@[simp] theorem State.drawn_loadErr : (s.drawn).loadErr = s.loadErr := rfl
@[simp] theorem State.drawn_loadLength : (s.drawn).loadLength = s.loadLength := rfl
@[simp] theorem State.drawn_slots : (s.drawn).slots = s.slots := rfl
@[simp] theorem State.drawn_faulted : (s.drawn).faulted = s.faulted := rfl
@[simp] theorem State.drawn_events : (s.drawn).events = s.events := rfl
@[simp] theorem State.drawn_randCount : (s.drawn).randCount = s.randCount + 1 := rfl
@[simp] theorem State.drawn_reg (r : Reg) : (s.drawn).reg r = s.reg r := rfl
@[simp] theorem State.drawn_memRead (a : Nat) : (s.drawn).memRead a = s.memRead a := rfl
@[simp] theorem State.drawn_cell (y : Fin 32) (x : Fin 64) : (s.drawn).cell y x = s.cell y x := rfl
@[simp] theorem State.drawn_key (k : Fin 16) : (s.drawn).key k = s.key k := rfl
@[simp] theorem State.drawn_slot (k : Fin 16) : (s.drawn).slot k = s.slot k := rfl
@[simp] theorem State.drawn_cosmac : (s.drawn).cosmac = s.cosmac := rfl
@[simp] theorem State.drawn_amiga : (s.drawn).amiga = s.amiga := rfl

/-! ### setPC -/

@[simp] theorem State.setPC_V (v : Word) : (s.setPC v).V = s.V := rfl
@[simp] theorem State.setPC_PC (v : Word) : (s.setPC v).PC = v := rfl
@[simp] theorem State.setPC_I (v : Word) : (s.setPC v).I = s.I := rfl
@[simp] theorem State.setPC_stack (v : Word) : (s.setPC v).stack = s.stack := rfl
@[simp] theorem State.setPC_SP (v : Word) : (s.setPC v).SP = s.SP := rfl
@[simp] theorem State.setPC_DT (v : Word) : (s.setPC v).DT = s.DT := rfl
@[simp] theorem State.setPC_ST (v : Word) : (s.setPC v).ST = s.ST := rfl
@[simp] theorem State.setPC_mem (v : Word) : (s.setPC v).mem = s.mem := rfl
@[simp] theorem State.setPC_disp (v : Word) : (s.setPC v).disp = s.disp := rfl
@[simp] theorem State.setPC_keys (v : Word) : (s.setPC v).keys = s.keys := rfl
@[simp] theorem State.setPC_keyJustPressed (v : Word) : (s.setPC v).keyJustPressed = s.keyJustPressed := rfl
@[simp] theorem State.setPC_lastKey (v : Word) : (s.setPC v).lastKey = s.lastKey := rfl
@[simp] theorem State.setPC_kwPhase (v : Word) : (s.setPC v).kwPhase = s.kwPhase := rfl
@[simp] theorem State.setPC_kwKey (v : Word) : (s.setPC v).kwKey = s.kwKey := rfl
@[simp] theorem State.setPC_running (v : Word) : (s.setPC v).running = s.running := rfl
@[simp] theorem State.setPC_redrawFlag (v : Word) : (s.setPC v).redrawFlag = s.redrawFlag := rfl
@[simp] theorem State.setPC_soundSignal (v : Word) : (s.setPC v).soundSignal = s.soundSignal := rfl
@[simp] theorem State.setPC_compatMode (v : Word) : (s.setPC v).compatMode = s.compatMode := rfl
@[simp] theorem State.setPC_renderReq (v : Word) : (s.setPC v).renderReq = s.renderReq := rfl
@[simp] theorem State.setPC_pcOor (v : Word) : (s.setPC v).pcOor = s.pcOor := rfl
@[simp] theorem State.setPC_loadErr (v : Word) : (s.setPC v).loadErr = s.loadErr := rfl
@[simp] theorem State.setPC_loadLength (v : Word) : (s.setPC v).loadLength = s.loadLength := rfl
@[simp] theorem State.setPC_slots (v : Word) : (s.setPC v).slots = s.slots := rfl
@[simp] theorem State.setPC_faulted (v : Word) : (s.setPC v).faulted = s.faulted := rfl
@[simp] theorem State.setPC_events (v : Word) : (s.setPC v).events = s.events := rfl
@[simp] theorem State.setPC_randCount (v : Word) : (s.setPC v).randCount = s.randCount := rfl
@[simp] theorem State.setPC_reg (v : Word) (r : Reg) : (s.setPC v).reg r = s.reg r := rfl
@[simp] theorem State.setPC_memRead (v : Word) (a : Nat) : (s.setPC v).memRead a = s.memRead a := rfl
@[simp] theorem State.setPC_cell (v : Word) (y : Fin 32) (x : Fin 64) : (s.setPC v).cell y x = s.cell y x := rfl
@[simp] theorem State.setPC_key (v : Word) (k : Fin 16) : (s.setPC v).key k = s.key k := rfl
@[simp] theorem State.setPC_slot (v : Word) (k : Fin 16) : (s.setPC v).slot k = s.slot k := rfl
@[simp] theorem State.setPC_cosmac (v : Word) : (s.setPC v).cosmac = s.cosmac := rfl
@[simp] theorem State.setPC_amiga (v : Word) : (s.setPC v).amiga = s.amiga := rfl

/-! ### memWrite -/

@[simp] theorem State.memWrite_V (b : Nat) (v : Byte) : (s.memWrite b v).V = s.V := rfl
@[simp] theorem State.memWrite_PC (b : Nat) (v : Byte) : (s.memWrite b v).PC = s.PC := rfl
@[simp] theorem State.memWrite_I (b : Nat) (v : Byte) : (s.memWrite b v).I = s.I := rfl
@[simp] theorem State.memWrite_stack (b : Nat) (v : Byte) : (s.memWrite b v).stack = s.stack := rfl
@[simp] theorem State.memWrite_SP (b : Nat) (v : Byte) : (s.memWrite b v).SP = s.SP := rfl
@[simp] theorem State.memWrite_DT (b : Nat) (v : Byte) : (s.memWrite b v).DT = s.DT := rfl
@[simp] theorem State.memWrite_ST (b : Nat) (v : Byte) : (s.memWrite b v).ST = s.ST := rfl
@[simp] theorem State.memWrite_mem (b : Nat) (v : Byte) : (s.memWrite b v).mem = s.mem.write (b % Config.memSize) v := rfl
@[simp] theorem State.memWrite_disp (b : Nat) (v : Byte) : (s.memWrite b v).disp = s.disp := rfl
@[simp] theorem State.memWrite_keys (b : Nat) (v : Byte) : (s.memWrite b v).keys = s.keys := rfl
@[simp] theorem State.memWrite_keyJustPressed (b : Nat) (v : Byte) : (s.memWrite b v).keyJustPressed = s.keyJustPressed := rfl
@[simp] theorem State.memWrite_lastKey (b : Nat) (v : Byte) : (s.memWrite b v).lastKey = s.lastKey := rfl
@[simp] theorem State.memWrite_kwPhase (b : Nat) (v : Byte) : (s.memWrite b v).kwPhase = s.kwPhase := rfl
@[simp] theorem State.memWrite_kwKey (b : Nat) (v : Byte) : (s.memWrite b v).kwKey = s.kwKey := rfl
@[simp] theorem State.memWrite_running (b : Nat) (v : Byte) : (s.memWrite b v).running = s.running := rfl
@[simp] theorem State.memWrite_redrawFlag (b : Nat) (v : Byte) : (s.memWrite b v).redrawFlag = s.redrawFlag := rfl
@[simp] theorem State.memWrite_soundSignal (b : Nat) (v : Byte) : (s.memWrite b v).soundSignal = s.soundSignal := rfl
@[simp] theorem State.memWrite_compatMode (b : Nat) (v : Byte) : (s.memWrite b v).compatMode = s.compatMode := rfl
@[simp] theorem State.memWrite_renderReq (b : Nat) (v : Byte) : (s.memWrite b v).renderReq = s.renderReq := rfl
@[simp] theorem State.memWrite_pcOor (b : Nat) (v : Byte) : (s.memWrite b v).pcOor = s.pcOor := rfl
@[simp] theorem State.memWrite_loadErr (b : Nat) (v : Byte) : (s.memWrite b v).loadErr = s.loadErr := rfl
@[simp] theorem State.memWrite_loadLength (b : Nat) (v : Byte) : (s.memWrite b v).loadLength = s.loadLength := rfl
@[simp] theorem State.memWrite_slots (b : Nat) (v : Byte) : (s.memWrite b v).slots = s.slots := rfl
@[simp] theorem State.memWrite_faulted (b : Nat) (v : Byte) : (s.memWrite b v).faulted = s.faulted := rfl
@[simp] theorem State.memWrite_events (b : Nat) (v : Byte) : (s.memWrite b v).events = s.events := rfl
@[simp] theorem State.memWrite_randCount (b : Nat) (v : Byte) : (s.memWrite b v).randCount = s.randCount := rfl
@[simp] theorem State.memWrite_reg (b : Nat) (v : Byte) (r : Reg) : (s.memWrite b v).reg r = s.reg r := rfl
@[simp] theorem State.memWrite_cell (b : Nat) (v : Byte) (y : Fin 32) (x : Fin 64) : (s.memWrite b v).cell y x = s.cell y x := rfl
@[simp] theorem State.memWrite_key (b : Nat) (v : Byte) (k : Fin 16) : (s.memWrite b v).key k = s.key k := rfl
@[simp] theorem State.memWrite_slot (b : Nat) (v : Byte) (k : Fin 16) : (s.memWrite b v).slot k = s.slot k := rfl
@[simp] theorem State.memWrite_cosmac (b : Nat) (v : Byte) : (s.memWrite b v).cosmac = s.cosmac := rfl
@[simp] theorem State.memWrite_amiga (b : Nat) (v : Byte) : (s.memWrite b v).amiga = s.amiga := rfl

/-! ### loadRegs -/

@[simp] theorem State.loadRegs_PC (q : Reg) : (s.loadRegs q).PC = s.PC := rfl
@[simp] theorem State.loadRegs_I (q : Reg) : (s.loadRegs q).I = s.I := rfl
@[simp] theorem State.loadRegs_stack (q : Reg) : (s.loadRegs q).stack = s.stack := rfl
@[simp] theorem State.loadRegs_SP (q : Reg) : (s.loadRegs q).SP = s.SP := rfl
@[simp] theorem State.loadRegs_DT (q : Reg) : (s.loadRegs q).DT = s.DT := rfl
@[simp] theorem State.loadRegs_ST (q : Reg) : (s.loadRegs q).ST = s.ST := rfl
@[simp] theorem State.loadRegs_mem (q : Reg) : (s.loadRegs q).mem = s.mem := rfl
@[simp] theorem State.loadRegs_disp (q : Reg) : (s.loadRegs q).disp = s.disp := rfl
@[simp] theorem State.loadRegs_keys (q : Reg) : (s.loadRegs q).keys = s.keys := rfl
@[simp] theorem State.loadRegs_keyJustPressed (q : Reg) : (s.loadRegs q).keyJustPressed = s.keyJustPressed := rfl
@[simp] theorem State.loadRegs_lastKey (q : Reg) : (s.loadRegs q).lastKey = s.lastKey := rfl
@[simp] theorem State.loadRegs_kwPhase (q : Reg) : (s.loadRegs q).kwPhase = s.kwPhase := rfl
@[simp] theorem State.loadRegs_kwKey (q : Reg) : (s.loadRegs q).kwKey = s.kwKey := rfl
@[simp] theorem State.loadRegs_running (q : Reg) : (s.loadRegs q).running = s.running := rfl
@[simp] theorem State.loadRegs_redrawFlag (q : Reg) : (s.loadRegs q).redrawFlag = s.redrawFlag := rfl
@[simp] theorem State.loadRegs_soundSignal (q : Reg) : (s.loadRegs q).soundSignal = s.soundSignal := rfl
@[simp] theorem State.loadRegs_compatMode (q : Reg) : (s.loadRegs q).compatMode = s.compatMode := rfl
@[simp] theorem State.loadRegs_renderReq (q : Reg) : (s.loadRegs q).renderReq = s.renderReq := rfl
@[simp] theorem State.loadRegs_pcOor (q : Reg) : (s.loadRegs q).pcOor = s.pcOor := rfl
@[simp] theorem State.loadRegs_loadErr (q : Reg) : (s.loadRegs q).loadErr = s.loadErr := rfl
@[simp] theorem State.loadRegs_loadLength (q : Reg) : (s.loadRegs q).loadLength = s.loadLength := rfl
@[simp] theorem State.loadRegs_slots (q : Reg) : (s.loadRegs q).slots = s.slots := rfl
@[simp] theorem State.loadRegs_faulted (q : Reg) : (s.loadRegs q).faulted = s.faulted := rfl
@[simp] theorem State.loadRegs_events (q : Reg) : (s.loadRegs q).events = s.events := rfl
@[simp] theorem State.loadRegs_randCount (q : Reg) : (s.loadRegs q).randCount = s.randCount := rfl
@[simp] theorem State.loadRegs_memRead (q : Reg) (a : Nat) : (s.loadRegs q).memRead a = s.memRead a := rfl
@[simp] theorem State.loadRegs_cell (q : Reg) (y : Fin 32) (x : Fin 64) : (s.loadRegs q).cell y x = s.cell y x := rfl
@[simp] theorem State.loadRegs_key (q : Reg) (k : Fin 16) : (s.loadRegs q).key k = s.key k := rfl
@[simp] theorem State.loadRegs_slot (q : Reg) (k : Fin 16) : (s.loadRegs q).slot k = s.slot k := rfl
@[simp] theorem State.loadRegs_cosmac (q : Reg) : (s.loadRegs q).cosmac = s.cosmac := rfl
@[simp] theorem State.loadRegs_amiga (q : Reg) : (s.loadRegs q).amiga = s.amiga := rfl

/-! ### timerPhases -/

@[simp] theorem timerPhases_V : (timerPhases s).V = s.V := rfl
@[simp] theorem timerPhases_PC : (timerPhases s).PC = s.PC := rfl
@[simp] theorem timerPhases_I : (timerPhases s).I = s.I := rfl
@[simp] theorem timerPhases_stack : (timerPhases s).stack = s.stack := rfl
@[simp] theorem timerPhases_SP : (timerPhases s).SP = s.SP := rfl
@[simp] theorem timerPhases_DT : (timerPhases s).DT = decTimer s.DT := rfl
@[simp] theorem timerPhases_ST : (timerPhases s).ST = decTimer s.ST := rfl
@[simp] theorem timerPhases_mem : (timerPhases s).mem = s.mem := rfl
@[simp] theorem timerPhases_disp : (timerPhases s).disp = s.disp := rfl
@[simp] theorem timerPhases_keys : (timerPhases s).keys = s.keys := rfl
@[simp] theorem timerPhases_keyJustPressed : (timerPhases s).keyJustPressed = s.keyJustPressed := rfl
@[simp] theorem timerPhases_lastKey : (timerPhases s).lastKey = s.lastKey := rfl
@[simp] theorem timerPhases_kwPhase : (timerPhases s).kwPhase = s.kwPhase := rfl
@[simp] theorem timerPhases_kwKey : (timerPhases s).kwKey = s.kwKey := rfl
@[simp] theorem timerPhases_running : (timerPhases s).running = s.running := rfl
@[simp] theorem timerPhases_redrawFlag : (timerPhases s).redrawFlag = false := rfl
@[simp] theorem timerPhases_soundSignal : (timerPhases s).soundSignal = if s.ST = 1 then .stop else .cont := rfl
@[simp] theorem timerPhases_compatMode : (timerPhases s).compatMode = s.compatMode := rfl
@[simp] theorem timerPhases_renderReq : (timerPhases s).renderReq = s.renderReq := rfl
@[simp] theorem timerPhases_pcOor : (timerPhases s).pcOor = false := rfl
@[simp] theorem timerPhases_loadErr : (timerPhases s).loadErr = s.loadErr := rfl
@[simp] theorem timerPhases_loadLength : (timerPhases s).loadLength = s.loadLength := rfl
@[simp] theorem timerPhases_slots : (timerPhases s).slots = s.slots := rfl
@[simp] theorem timerPhases_faulted : (timerPhases s).faulted = s.faulted := rfl
@[simp] theorem timerPhases_events : (timerPhases s).events = s.events := rfl
@[simp] theorem timerPhases_randCount : (timerPhases s).randCount = s.randCount := rfl
@[simp] theorem timerPhases_reg (r : Reg) : (timerPhases s).reg r = s.reg r := rfl
@[simp] theorem timerPhases_memRead (a : Nat) : (timerPhases s).memRead a = s.memRead a := rfl
@[simp] theorem timerPhases_cell (y : Fin 32) (x : Fin 64) : (timerPhases s).cell y x = s.cell y x := rfl
@[simp] theorem timerPhases_key (k : Fin 16) : (timerPhases s).key k = s.key k := rfl
@[simp] theorem timerPhases_slot (k : Fin 16) : (timerPhases s).slot k = s.slot k := rfl
@[simp] theorem timerPhases_cosmac : (timerPhases s).cosmac = s.cosmac := rfl
@[simp] theorem timerPhases_amiga : (timerPhases s).amiga = s.amiga := rfl

/-! ### closePhases -/

@[simp] theorem closePhases_V : (closePhases s).V = s.V := rfl
@[simp] theorem closePhases_PC : (closePhases s).PC = s.PC := rfl
@[simp] theorem closePhases_I : (closePhases s).I = s.I := rfl
@[simp] theorem closePhases_stack : (closePhases s).stack = s.stack := rfl
@[simp] theorem closePhases_SP : (closePhases s).SP = s.SP := rfl
@[simp] theorem closePhases_DT : (closePhases s).DT = s.DT := rfl
@[simp] theorem closePhases_ST : (closePhases s).ST = s.ST := rfl
@[simp] theorem closePhases_mem : (closePhases s).mem = s.mem := rfl
@[simp] theorem closePhases_disp : (closePhases s).disp = s.disp := rfl
@[simp] theorem closePhases_keys : (closePhases s).keys = s.keys := rfl
@[simp] theorem closePhases_keyJustPressed : (closePhases s).keyJustPressed = false := rfl
@[simp] theorem closePhases_lastKey : (closePhases s).lastKey = s.lastKey := rfl
@[simp] theorem closePhases_kwPhase : (closePhases s).kwPhase = s.kwPhase := rfl
@[simp] theorem closePhases_kwKey : (closePhases s).kwKey = s.kwKey := rfl
@[simp] theorem closePhases_running : (closePhases s).running = s.running := rfl
@[simp] theorem closePhases_redrawFlag : (closePhases s).redrawFlag = s.redrawFlag := rfl
@[simp] theorem closePhases_soundSignal : (closePhases s).soundSignal = s.soundSignal := rfl
@[simp] theorem closePhases_compatMode : (closePhases s).compatMode = s.compatMode := rfl
@[simp] theorem closePhases_renderReq : (closePhases s).renderReq = s.redrawFlag := rfl
@[simp] theorem closePhases_pcOor : (closePhases s).pcOor = s.pcOor := rfl
@[simp] theorem closePhases_loadErr : (closePhases s).loadErr = s.loadErr := rfl
@[simp] theorem closePhases_loadLength : (closePhases s).loadLength = s.loadLength := rfl
@[simp] theorem closePhases_slots : (closePhases s).slots = s.slots := rfl
@[simp] theorem closePhases_faulted : (closePhases s).faulted = s.faulted := rfl
@[simp] theorem closePhases_events : (closePhases s).events = s.events := rfl
@[simp] theorem closePhases_randCount : (closePhases s).randCount = s.randCount := rfl
@[simp] theorem closePhases_reg (r : Reg) : (closePhases s).reg r = s.reg r := rfl
@[simp] theorem closePhases_memRead (a : Nat) : (closePhases s).memRead a = s.memRead a := rfl
@[simp] theorem closePhases_cell (y : Fin 32) (x : Fin 64) : (closePhases s).cell y x = s.cell y x := rfl
@[simp] theorem closePhases_key (k : Fin 16) : (closePhases s).key k = s.key k := rfl
@[simp] theorem closePhases_slot (k : Fin 16) : (closePhases s).slot k = s.slot k := rfl
@[simp] theorem closePhases_cosmac : (closePhases s).cosmac = s.cosmac := rfl
@[simp] theorem closePhases_amiga : (closePhases s).amiga = s.amiga := rfl

/-! ### closeTick -/

@[simp] theorem closeTick_V : (closeTick s).V = s.V := rfl
@[simp] theorem closeTick_PC : (closeTick s).PC = s.PC := rfl
@[simp] theorem closeTick_I : (closeTick s).I = s.I := rfl
@[simp] theorem closeTick_stack : (closeTick s).stack = s.stack := rfl
@[simp] theorem closeTick_SP : (closeTick s).SP = s.SP := rfl
@[simp] theorem closeTick_DT : (closeTick s).DT = s.DT := rfl
@[simp] theorem closeTick_ST : (closeTick s).ST = s.ST := rfl
@[simp] theorem closeTick_mem : (closeTick s).mem = s.mem := rfl
@[simp] theorem closeTick_disp : (closeTick s).disp = s.disp := rfl
@[simp] theorem closeTick_keys : (closeTick s).keys = s.keys := rfl
@[simp] theorem closeTick_keyJustPressed : (closeTick s).keyJustPressed = false := rfl
@[simp] theorem closeTick_lastKey : (closeTick s).lastKey = s.lastKey := rfl
@[simp] theorem closeTick_kwPhase : (closeTick s).kwPhase = s.kwPhase := rfl
@[simp] theorem closeTick_kwKey : (closeTick s).kwKey = s.kwKey := rfl
@[simp] theorem closeTick_running : (closeTick s).running = s.running := rfl
@[simp] theorem closeTick_redrawFlag : (closeTick s).redrawFlag = s.redrawFlag := rfl
@[simp] theorem closeTick_soundSignal : (closeTick s).soundSignal = s.soundSignal := rfl
@[simp] theorem closeTick_compatMode : (closeTick s).compatMode = s.compatMode := rfl
@[simp] theorem closeTick_renderReq : (closeTick s).renderReq = s.redrawFlag := rfl
@[simp] theorem closeTick_pcOor : (closeTick s).pcOor = s.pcOor := rfl
@[simp] theorem closeTick_loadErr : (closeTick s).loadErr = s.loadErr := rfl
@[simp] theorem closeTick_loadLength : (closeTick s).loadLength = s.loadLength := rfl
@[simp] theorem closeTick_slots : (closeTick s).slots = 0 := rfl
@[simp] theorem closeTick_faulted : (closeTick s).faulted = s.faulted := rfl
@[simp] theorem closeTick_events : (closeTick s).events = s.events := rfl
@[simp] theorem closeTick_randCount : (closeTick s).randCount = s.randCount := rfl
@[simp] theorem closeTick_reg (r : Reg) : (closeTick s).reg r = s.reg r := rfl
@[simp] theorem closeTick_memRead (a : Nat) : (closeTick s).memRead a = s.memRead a := rfl
@[simp] theorem closeTick_cell (y : Fin 32) (x : Fin 64) : (closeTick s).cell y x = s.cell y x := rfl
@[simp] theorem closeTick_key (k : Fin 16) : (closeTick s).key k = s.key k := rfl
@[simp] theorem closeTick_slot (k : Fin 16) : (closeTick s).slot k = s.slot k := rfl
@[simp] theorem closeTick_cosmac : (closeTick s).cosmac = s.cosmac := rfl
@[simp] theorem closeTick_amiga : (closeTick s).amiga = s.amiga := rfl

/-! ### pausedTick -/

@[simp] theorem pausedTick_V : (pausedTick s).V = s.V := rfl
@[simp] theorem pausedTick_PC : (pausedTick s).PC = s.PC := rfl
@[simp] theorem pausedTick_I : (pausedTick s).I = s.I := rfl
@[simp] theorem pausedTick_stack : (pausedTick s).stack = s.stack := rfl
@[simp] theorem pausedTick_SP : (pausedTick s).SP = s.SP := rfl
@[simp] theorem pausedTick_DT : (pausedTick s).DT = s.DT := rfl
@[simp] theorem pausedTick_ST : (pausedTick s).ST = s.ST := rfl
@[simp] theorem pausedTick_mem : (pausedTick s).mem = s.mem := rfl
@[simp] theorem pausedTick_disp : (pausedTick s).disp = s.disp := rfl
@[simp] theorem pausedTick_keys : (pausedTick s).keys = s.keys := rfl
@[simp] theorem pausedTick_keyJustPressed : (pausedTick s).keyJustPressed = s.keyJustPressed := rfl
@[simp] theorem pausedTick_lastKey : (pausedTick s).lastKey = s.lastKey := rfl
@[simp] theorem pausedTick_kwPhase : (pausedTick s).kwPhase = s.kwPhase := rfl
@[simp] theorem pausedTick_kwKey : (pausedTick s).kwKey = s.kwKey := rfl
@[simp] theorem pausedTick_running : (pausedTick s).running = s.running := rfl
@[simp] theorem pausedTick_redrawFlag : (pausedTick s).redrawFlag = s.redrawFlag := rfl
@[simp] theorem pausedTick_soundSignal : (pausedTick s).soundSignal = .stop := rfl
@[simp] theorem pausedTick_compatMode : (pausedTick s).compatMode = s.compatMode := rfl
@[simp] theorem pausedTick_renderReq : (pausedTick s).renderReq = s.redrawFlag := rfl
@[simp] theorem pausedTick_pcOor : (pausedTick s).pcOor = false := rfl
@[simp] theorem pausedTick_loadErr : (pausedTick s).loadErr = s.loadErr := rfl
@[simp] theorem pausedTick_loadLength : (pausedTick s).loadLength = s.loadLength := rfl
@[simp] theorem pausedTick_slots : (pausedTick s).slots = s.slots := rfl
@[simp] theorem pausedTick_faulted : (pausedTick s).faulted = s.faulted := rfl
@[simp] theorem pausedTick_events : (pausedTick s).events = s.events := rfl
@[simp] theorem pausedTick_randCount : (pausedTick s).randCount = s.randCount := rfl
@[simp] theorem pausedTick_reg (r : Reg) : (pausedTick s).reg r = s.reg r := rfl
@[simp] theorem pausedTick_memRead (a : Nat) : (pausedTick s).memRead a = s.memRead a := rfl
@[simp] theorem pausedTick_cell (y : Fin 32) (x : Fin 64) : (pausedTick s).cell y x = s.cell y x := rfl
@[simp] theorem pausedTick_key (k : Fin 16) : (pausedTick s).key k = s.key k := rfl
@[simp] theorem pausedTick_slot (k : Fin 16) : (pausedTick s).slot k = s.slot k := rfl
@[simp] theorem pausedTick_cosmac : (pausedTick s).cosmac = s.cosmac := rfl
@[simp] theorem pausedTick_amiga : (pausedTick s).amiga = s.amiga := rfl

/-! ### setRunning -/

@[simp] theorem setRunning_V (b : Bool) : (setRunning b s).V = s.V := rfl
@[simp] theorem setRunning_PC (b : Bool) : (setRunning b s).PC = s.PC := rfl
@[simp] theorem setRunning_I (b : Bool) : (setRunning b s).I = s.I := rfl
@[simp] theorem setRunning_stack (b : Bool) : (setRunning b s).stack = s.stack := rfl
@[simp] theorem setRunning_SP (b : Bool) : (setRunning b s).SP = s.SP := rfl
@[simp] theorem setRunning_DT (b : Bool) : (setRunning b s).DT = s.DT := rfl
@[simp] theorem setRunning_ST (b : Bool) : (setRunning b s).ST = s.ST := rfl
@[simp] theorem setRunning_mem (b : Bool) : (setRunning b s).mem = s.mem := rfl
@[simp] theorem setRunning_disp (b : Bool) : (setRunning b s).disp = s.disp := rfl
@[simp] theorem setRunning_keys (b : Bool) : (setRunning b s).keys = s.keys := rfl
@[simp] theorem setRunning_keyJustPressed (b : Bool) : (setRunning b s).keyJustPressed = s.keyJustPressed := rfl
@[simp] theorem setRunning_lastKey (b : Bool) : (setRunning b s).lastKey = s.lastKey := rfl
@[simp] theorem setRunning_kwPhase (b : Bool) : (setRunning b s).kwPhase = s.kwPhase := rfl
@[simp] theorem setRunning_kwKey (b : Bool) : (setRunning b s).kwKey = s.kwKey := rfl
@[simp] theorem setRunning_running (b : Bool) : (setRunning b s).running = b := rfl
@[simp] theorem setRunning_redrawFlag (b : Bool) : (setRunning b s).redrawFlag = s.redrawFlag := rfl
@[simp] theorem setRunning_soundSignal (b : Bool) : (setRunning b s).soundSignal = s.soundSignal := rfl
@[simp] theorem setRunning_compatMode (b : Bool) : (setRunning b s).compatMode = s.compatMode := rfl
@[simp] theorem setRunning_renderReq (b : Bool) : (setRunning b s).renderReq = s.renderReq := rfl
@[simp] theorem setRunning_pcOor (b : Bool) : (setRunning b s).pcOor = s.pcOor := rfl
@[simp] theorem setRunning_loadErr (b : Bool) : (setRunning b s).loadErr = s.loadErr := rfl
@[simp] theorem setRunning_loadLength (b : Bool) : (setRunning b s).loadLength = s.loadLength := rfl
@[simp] theorem setRunning_slots (b : Bool) : (setRunning b s).slots = s.slots := rfl
@[simp] theorem setRunning_faulted (b : Bool) : (setRunning b s).faulted = s.faulted := rfl
@[simp] theorem setRunning_events (b : Bool) : (setRunning b s).events = s.events := rfl
@[simp] theorem setRunning_randCount (b : Bool) : (setRunning b s).randCount = s.randCount := rfl
@[simp] theorem setRunning_reg (b : Bool) (r : Reg) : (setRunning b s).reg r = s.reg r := rfl
@[simp] theorem setRunning_memRead (b : Bool) (a : Nat) : (setRunning b s).memRead a = s.memRead a := rfl
@[simp] theorem setRunning_cell (b : Bool) (y : Fin 32) (x : Fin 64) : (setRunning b s).cell y x = s.cell y x := rfl
@[simp] theorem setRunning_key (b : Bool) (k : Fin 16) : (setRunning b s).key k = s.key k := rfl
@[simp] theorem setRunning_slot (b : Bool) (k : Fin 16) : (setRunning b s).slot k = s.slot k := rfl
@[simp] theorem setRunning_cosmac (b : Bool) : (setRunning b s).cosmac = s.cosmac := rfl
@[simp] theorem setRunning_amiga (b : Bool) : (setRunning b s).amiga = s.amiga := rfl

/-! ### setMode -/

@[simp] theorem setMode_V (m : BitVec 3) : (setMode m s).V = s.V := rfl
@[simp] theorem setMode_PC (m : BitVec 3) : (setMode m s).PC = s.PC := rfl
@[simp] theorem setMode_I (m : BitVec 3) : (setMode m s).I = s.I := rfl
@[simp] theorem setMode_stack (m : BitVec 3) : (setMode m s).stack = s.stack := rfl
@[simp] theorem setMode_SP (m : BitVec 3) : (setMode m s).SP = s.SP := rfl
@[simp] theorem setMode_DT (m : BitVec 3) : (setMode m s).DT = s.DT := rfl
@[simp] theorem setMode_ST (m : BitVec 3) : (setMode m s).ST = s.ST := rfl
@[simp] theorem setMode_mem (m : BitVec 3) : (setMode m s).mem = s.mem := rfl
@[simp] theorem setMode_disp (m : BitVec 3) : (setMode m s).disp = s.disp := rfl
@[simp] theorem setMode_keys (m : BitVec 3) : (setMode m s).keys = s.keys := rfl
@[simp] theorem setMode_keyJustPressed (m : BitVec 3) : (setMode m s).keyJustPressed = s.keyJustPressed := rfl
@[simp] theorem setMode_lastKey (m : BitVec 3) : (setMode m s).lastKey = s.lastKey := rfl
@[simp] theorem setMode_kwPhase (m : BitVec 3) : (setMode m s).kwPhase = s.kwPhase := rfl
@[simp] theorem setMode_kwKey (m : BitVec 3) : (setMode m s).kwKey = s.kwKey := rfl
@[simp] theorem setMode_running (m : BitVec 3) : (setMode m s).running = s.running := rfl
@[simp] theorem setMode_redrawFlag (m : BitVec 3) : (setMode m s).redrawFlag = s.redrawFlag := rfl
@[simp] theorem setMode_soundSignal (m : BitVec 3) : (setMode m s).soundSignal = s.soundSignal := rfl
@[simp] theorem setMode_compatMode (m : BitVec 3) : (setMode m s).compatMode = m := rfl
@[simp] theorem setMode_renderReq (m : BitVec 3) : (setMode m s).renderReq = s.renderReq := rfl
@[simp] theorem setMode_pcOor (m : BitVec 3) : (setMode m s).pcOor = s.pcOor := rfl
@[simp] theorem setMode_loadErr (m : BitVec 3) : (setMode m s).loadErr = s.loadErr := rfl
@[simp] theorem setMode_loadLength (m : BitVec 3) : (setMode m s).loadLength = s.loadLength := rfl
@[simp] theorem setMode_slots (m : BitVec 3) : (setMode m s).slots = s.slots := rfl
@[simp] theorem setMode_faulted (m : BitVec 3) : (setMode m s).faulted = s.faulted := rfl
@[simp] theorem setMode_events (m : BitVec 3) : (setMode m s).events = s.events := rfl
@[simp] theorem setMode_randCount (m : BitVec 3) : (setMode m s).randCount = s.randCount := rfl
@[simp] theorem setMode_reg (m : BitVec 3) (r : Reg) : (setMode m s).reg r = s.reg r := rfl
@[simp] theorem setMode_memRead (m : BitVec 3) (a : Nat) : (setMode m s).memRead a = s.memRead a := rfl
@[simp] theorem setMode_cell (m : BitVec 3) (y : Fin 32) (x : Fin 64) : (setMode m s).cell y x = s.cell y x := rfl
@[simp] theorem setMode_key (m : BitVec 3) (k : Fin 16) : (setMode m s).key k = s.key k := rfl
@[simp] theorem setMode_slot (m : BitVec 3) (k : Fin 16) : (setMode m s).slot k = s.slot k := rfl

/-! ### Derived updates -/

@[simp] theorem State.advance_eq : s.advance = s.setPC (s.PC + 2) := rfl
@[simp] theorem State.skip_eq : s.skip = s.setPC (s.PC + 4) := rfl
@[simp] theorem State.setFlag_eq (b : Bool) : s.setFlag b = s.setReg flagReg (flagByte b) := rfl
@[simp] theorem State.setResultFlag_eq (x : Reg) (v : Byte) (b : Bool) :
    s.setResultFlag x v b = (s.setReg x v).setReg flagReg (flagByte b) := rfl
@[simp] theorem State.setDisp_cell (d : Display) (y : Fin 32) (x : Fin 64) :
    (s.setDisp d).cell y x = d[y.val][x.val] := rfl
@[simp] theorem setMode_cosmac (m : BitVec 3) : (setMode m s).cosmac = m.getLsbD 0 := rfl
@[simp] theorem setMode_amiga (m : BitVec 3) : (setMode m s).amiga = m.getLsbD 2 := rfl

end Sys2Proof.Machine
end

