-- ==== Sys2Proof/Laws/Memory.lean ====
section
/-! SUPPORT. Memory: a read after a write (`20_memory.md` R64, R65), and that every operation keeps the canonical
form. -/

namespace Sys2Proof.Machine

/-! ## Read after write -/

theorem Memory.read_remove (m : Memory) (a c : Nat) :
    (m.remove a).read c = if c = a then Memory.unlisted a else m.read c := by
  induction m with
  | nil => by_cases h : c = a <;> simp [Memory.remove, Memory.read, h]
  | cons e m ih =>
    obtain ⟨a', b'⟩ := e
    unfold Memory.remove at ih ⊢
    by_cases ha : a' = a
    · subst ha
      simp only [List.filter_cons, ne_eq, not_true, decide_false, Bool.false_eq_true, if_false, ih, Memory.read]
      split <;> rfl
    · simp only [List.filter_cons, ne_eq, ha, not_false_eq_true, decide_true, if_true, Memory.read, ih]
      by_cases hc : c = a'
      · subst hc; simp [ha]
      · simp [hc]

theorem Memory.read_put (m : Memory) (a : Nat) (b : Byte) (c : Nat) (h : ∀ e ∈ m, e.1 ≠ a) :
    (m.put a b).read c = if c = a then b else m.read c := by
  induction m with
  | nil => by_cases hc : c = a <;> simp [Memory.put, Memory.read, hc]
  | cons e m ih =>
    obtain ⟨a', b'⟩ := e
    have ha : a' ≠ a := h _ List.mem_cons_self
    have ih := ih fun e he => h e (List.mem_cons_of_mem _ he)
    unfold Memory.put
    split
    · simp [Memory.read]
    · simp only [Memory.read, ih]
      by_cases hc : c = a'
      · subst hc; simp [ha]
      · simp [hc]

theorem Memory.not_mem_remove (m : Memory) (a : Nat) : ∀ e ∈ m.remove a, e.1 ≠ a := by
  intro e he
  simpa using (List.mem_filter.mp he).2

/-- A byte reads as it was last written; every other byte reads as before. -/
theorem Memory.read_write (m : Memory) (a : Nat) (b : Byte) (c : Nat) :
    (m.write a b).read c = if c = a then b else m.read c := by
  unfold Memory.write
  split
  · rename_i h; rw [Memory.read_remove, h]
  · rw [Memory.read_put _ _ _ _ (Memory.not_mem_remove m a), Memory.read_remove]
    split <;> simp_all

/-- `MemRead` after `MemWrite`, both addresses mod 4096 (R64, R65). -/
@[simp] theorem State.memRead_memWrite (s : State) (a : Nat) (v : Byte) (c : Nat) :
    (s.memWrite a v).memRead c = if c % Config.memSize = a % Config.memSize then v else s.memRead c :=
  Memory.read_write ..

/-! ## The canonical form -/

theorem Memory.wfFrom_mono {m : Memory} {lo lo' : Nat} (h : lo' ≤ lo) (hm : Memory.wfFrom lo m = true) :
    Memory.wfFrom lo' m = true := by
  cases m with
  | nil => rfl
  | cons e m => simp only [Memory.wfFrom, Bool.and_eq_true, decide_eq_true_eq] at hm ⊢; grind

theorem Memory.wfFrom_remove {m : Memory} {lo a : Nat} (hm : Memory.wfFrom lo m = true) :
    Memory.wfFrom lo (m.remove a) = true := by
  induction m generalizing lo with
  | nil => rfl
  | cons e m ih =>
    simp only [Memory.wfFrom, Bool.and_eq_true, decide_eq_true_eq] at hm
    obtain ⟨⟨⟨h1, h2⟩, h3⟩, h4⟩ := hm
    unfold Memory.remove at ih ⊢
    rw [List.filter_cons]
    split
    · simp only [Memory.wfFrom, Bool.and_eq_true, decide_eq_true_eq]
      exact ⟨⟨⟨h1, h2⟩, h3⟩, ih h4⟩
    · exact Memory.wfFrom_mono (by omega) (ih h4)

theorem Memory.wfFrom_put {m : Memory} {lo a : Nat} {b : Byte} (hm : Memory.wfFrom lo m = true)
    (hlo : lo ≤ a) (ha : a < Config.memSize) (hb : b ≠ Memory.unlisted a) (hne : ∀ e ∈ m, e.1 ≠ a) :
    Memory.wfFrom lo (m.put a b) = true := by
  induction m generalizing lo with
  | nil => simp [Memory.put, Memory.wfFrom, hlo, ha, hb]
  | cons e m ih =>
    have hea : e.1 ≠ a := hne _ List.mem_cons_self
    have ih := fun lo' h1 h2 => ih (lo := lo') h1 h2 fun e he => hne e (List.mem_cons_of_mem _ he)
    simp only [Memory.wfFrom, Bool.and_eq_true, decide_eq_true_eq] at hm
    obtain ⟨⟨⟨h1, h2⟩, h3⟩, h4⟩ := hm
    unfold Memory.put
    split
    · simp only [Memory.wfFrom, Bool.and_eq_true, decide_eq_true_eq]
      exact ⟨⟨⟨hlo, ha⟩, hb⟩, ⟨⟨by omega, h2⟩, h3⟩, h4⟩
    · simp only [Memory.wfFrom, Bool.and_eq_true, decide_eq_true_eq]
      exact ⟨⟨⟨h1, h2⟩, h3⟩, ih _ h4 (by omega)⟩

/-- A write inside the address space keeps the canonical form. -/
theorem Memory.wf_write {m : Memory} (hm : m.wf = true) {a : Nat} (ha : a < Config.memSize) (b : Byte) :
    (m.write a b).wf = true := by
  unfold Memory.write Memory.wf at *
  split
  · exact Memory.wfFrom_remove hm
  · exact Memory.wfFrom_put (Memory.wfFrom_remove hm) (Nat.zero_le _) ha ‹_› (Memory.not_mem_remove m a)

theorem State.memWrite_wf {s : State} (hs : s.mem.wf = true) (a : Nat) (v : Byte) :
    (s.memWrite a v).mem.wf = true :=
  Memory.wf_write hs (Nat.mod_lt _ (by decide)) v

theorem State.memWriteList_wf {s : State} (hs : s.mem.wf = true) (a : Nat) (vs : List Byte) :
    (s.memWriteList a vs).mem.wf = true := by
  induction vs generalizing s a with
  | nil => exact hs
  | cons v vs ih => exact ih (State.memWrite_wf hs a v) _

/-- Reset memory is in canonical form. -/
theorem State.reset_mem_wf : State.reset.mem.wf = true := rfl

/-! ## A list of bytes written -/

/-- Writing a list of bytes changes memory and nothing else. -/
theorem State.memWriteList_eq (s : State) (a : Nat) (vs : List Byte) :
    s.memWriteList a vs = { s with mem := (s.memWriteList a vs).mem } := by
  induction vs generalizing s a with
  | nil => rfl
  | cons v vs ih => rw [State.memWriteList, ih]; rfl

/-- Every byte outside the addresses written reads as before. -/
theorem State.memRead_memWriteList_outside (s : State) (a : Nat) (vs : List Byte) (c : Nat)
    (h : ∀ k < vs.length, c % Config.memSize ≠ (a + k) % Config.memSize) :
    (s.memWriteList a vs).memRead c = s.memRead c := by
  induction vs generalizing s a with
  | nil => rfl
  | cons v vs ih =>
    have h0 := h 0 (by simp)
    rw [State.memWriteList, ih]
    · rw [State.memRead_memWrite, if_neg (by simpa using h0)]
    · intro k hk
      have := h (k + 1) (by simp only [List.length_cons]; omega)
      rwa [show a + 1 + k = a + (k + 1) by omega]

/-- Up to 4096 bytes written at ascending addresses read back, each where it was put. -/
theorem State.memRead_memWriteList (s : State) (a : Nat) (vs : List Byte) (hlen : vs.length ≤ Config.memSize)
    (k : Nat) (hk : k < vs.length) :
    (s.memWriteList a vs).memRead (a + k) = vs[k] := by
  induction vs generalizing s a k with
  | nil => simp at hk
  | cons v vs ih =>
    simp only [List.length_cons] at hlen hk
    rw [State.memWriteList]
    cases k with
    | zero =>
      rw [State.memRead_memWriteList_outside, State.memRead_memWrite]
      · simp
      · intro j hj
        simp only [Config.memSize] at hlen ⊢
        omega
    | succ k =>
      rw [show a + (k + 1) = a + 1 + k by omega, ih _ _ (by omega) k (by omega)]
      rfl

end Sys2Proof.Machine
end

