-- ==== Sys2Proof/Laws/Ops.lean ====
section
/-! SUPPORT. One lemma per shared operation: everything it can do, for the provers to cite instead of unfolding it. -/

namespace Sys2Proof.Machine

/-! ## Registers and flags -/

/-- A register reads as it was last written; every other register reads as before (`10_state.md` R21). -/
@[simp] theorem State.reg_setReg (s : State) (q : Reg) (v : Byte) (r : Reg) :
    (s.setReg q v).reg r = if r = q then v else s.reg r := by
  simp only [State.reg, State.setReg, Vector.getElem_set, Fin.ext_iff, eq_comm]

/-- A flag-writing instruction: `V[15]` ends as the flag, `V[x]` as the result unless `x = 15` (R22, R163). -/
theorem State.reg_setResultFlag (s : State) (x : Reg) (v : Byte) (b : Bool) (r : Reg) :
    (s.setResultFlag x v b).reg r = if r = 15 then flagByte b else if r = x then v else s.reg r := by
  simp [flagReg]

/-- A logic result: the flag is forced to zero only under COSMAC (R153 to R155). -/
theorem State.reg_setLogicResult (s : State) (x : Reg) (v : Byte) (r : Reg) :
    (s.setLogicResult x v).reg r =
      if s.cosmac = true ∧ r = 15 then 0 else if r = x then v else s.reg r := by
  unfold State.setLogicResult
  by_cases h : s.cosmac = true <;> simp [h, flagReg, flagByte]

/-- A logic result touches nothing but the registers. -/
theorem State.setLogicResult_eq (s : State) (x : Reg) (v : Byte) :
    s.setLogicResult x v = { s with V := (s.setLogicResult x v).V } := by
  unfold State.setLogicResult
  split <;> rfl

/-- A block load: the registers up to `x` from memory, the others as before (R185). -/
@[simp] theorem State.reg_loadRegs (s : State) (x r : Reg) :
    (s.loadRegs x).reg r = if r ≤ x then s.memRead (s.indexAddr r.val) else s.reg r := by
  simp [State.reg, State.loadRegs]

/-- The operand of a block store has `x + 1` bytes. -/
@[simp] theorem State.length_regsUpTo (s : State) (x : Reg) : (s.regsUpTo x).length = x.val + 1 := by
  simp [State.regsUpTo]

/-- The `k`-th byte of a block store is `V[k]` (R184). -/
@[simp] theorem State.getElem_regsUpTo (s : State) (x : Reg) (k : Nat) (hk : k < (s.regsUpTo x).length) :
    (s.regsUpTo x)[k] = s.reg ⟨k, by rw [State.length_regsUpTo] at hk; omega⟩ := by
  simp [State.regsUpTo, State.reg]

/-- A skip sets `PC` and nothing else. -/
theorem State.skipIf_eq (s : State) (c : Bool) : s.skipIf c = s.setPC (if c then s.PC + 4 else s.PC + 2) := by
  cases c <;> rfl

/-! ## The stack -/

/-- A push onto a stack that is not full: the slot at `SP`, then `SP + 1`; nothing else (R27). -/
theorem State.push_eq_some {s t : State} {v : Word} (h : s.push v = some t) :
    ∃ hsp : s.SP.val < 16, t = { s with
      stack := s.stack.set s.SP.val v hsp, SP := ⟨s.SP.val + 1, by omega⟩ } := by
  unfold State.push at h
  split at h
  · exact ⟨‹_›, (Option.some.inj h).symm⟩
  · cases h

/-- A push fails exactly on a full stack (R27). -/
theorem State.push_eq_none {s : State} {v : Word} : s.push v = none ↔ s.SP.val = 16 := by
  unfold State.push
  split
  · simp; omega
  · simp; omega

/-- A pop from a stack that is not empty: `SP - 1`, the slot there is the result and keeps its value (R27). -/
theorem State.pop_eq_some {s t : State} {v : Word} (h : s.pop = some (v, t)) :
    ∃ hsp : 0 < s.SP.val, v = s.stack[s.SP.val - 1] ∧ t = { s with SP := ⟨s.SP.val - 1, by omega⟩ } := by
  unfold State.pop at h
  split at h
  · rename_i hsp
    cases h
    exact ⟨hsp, rfl, rfl⟩
  · cases h

/-- A pop fails exactly on an empty stack (R27). -/
theorem State.pop_eq_none {s : State} : s.pop = none ↔ s.SP.val = 0 := by
  unfold State.pop
  split
  · simp; omega
  · simp; omega

/-! ## The fetch and one instruction -/

/-- A fetch is legal exactly up to 4094 (R121). -/
theorem State.pcInRange_iff (s : State) : s.pcInRange = true ↔ s.PC.toNat ≤ 4094 := by
  rw [State.pcInRange, decide_eq_true_iff, Config.memSize]; omega

/-- What a fetch gives: a word, exactly where `PC` is in range (R121). -/
theorem State.fetch16_eq_some {s : State} {w : Word} (h : s.fetch16 = some w) :
    s.PC.toNat ≤ 4094 ∧ w = wordOfBytes (s.memRead s.PC.toNat) (s.memRead (s.PC.toNat + 1)) := by
  unfold State.fetch16 at h
  split at h
  · exact ⟨s.pcInRange_iff.mp ‹_›, (Option.some.inj h).symm⟩
  · cases h

theorem State.fetch16_eq_none {s : State} : s.fetch16 = none ↔ 4094 < s.PC.toNat := by
  have := s.pcInRange_iff
  unfold State.fetch16
  split <;> simp_all

/-- A word put together from two bytes, as a number (R67). -/
theorem wordOfBytes_toNat (hi lo : Byte) : (wordOfBytes hi lo).toNat = hi.toNat * 256 + lo.toNat := by
  simp only [wordOfBytes, BitVec.toNat_ofNat]
  omega

theorem wordOfBytes_hi_lo (w : Word) : wordOfBytes (wordHi w) (wordLo w) = w := by
  apply BitVec.eq_of_toNat_eq
  rw [wordOfBytes_toNat]
  simp only [wordHi, wordLo, BitVec.extractLsb'_toNat, Nat.shiftRight_eq_div_pow]
  omega

/-- What `executeOne` can answer with a next state: the decoded instruction's own (R120). -/
theorem executeOne_eq_next {s t : State} (h : executeOne s = .next t) :
    ∃ w, s.fetch16 = some w ∧ exec (decode w) s = .next t := by
  unfold executeOne at h
  split at h
  · exact ⟨_, ‹_›, h⟩
  · cases h

/-! ## The tick -/

/-- A tick with no slot left is closed; with slots left nothing but their number changes (R253). -/
theorem withSlots_eq (n : Nat) (s : State) :
    withSlots n s = if n = 0 then closeTick s else { s with slots := n } := by
  cases n <;> rfl

@[simp] theorem withSlots_slots (n : Nat) (s : State) : (withSlots n s).slots = n := by
  cases n <;> rfl

/-- A decrement stops at 0 (R28). -/
theorem decTimer_toNat (t : Byte) : (decTimer t).toNat = t.toNat - 1 := by
  unfold decTimer
  split
  · rename_i h; simp [h]
  · rename_i h
    have : t.toNat ≠ 0 := fun h0 => h (BitVec.eq_of_toNat_eq h0)
    have := t.isLt
    have h1 : (1 : Byte).toNat = 1 := rfl
    simp only [BitVec.toNat_sub, h1]
    omega

/-- Everything one slot of the tick can do: run the decoded instruction and count the slot, or, at a fault, note it and
close the tick (R251, R253, R254). -/
theorem runSlot_eq_next {left : Nat} {s t : State} (h : runSlot left s = .next t) :
    (∃ w s', s.fetch16 = some w ∧ exec (decode w) s = .next s' ∧ t = withSlots left s') ∨
      ∃ f, executeOne s = .fault f ∧ t = closeTick (leaveLoop f s) := by
  unfold runSlot at h
  split at h
  · rename_i s' hs
    obtain ⟨w, hw, he⟩ := executeOne_eq_next hs
    exact .inl ⟨w, s', hw, he, by cases h; rfl⟩
  · rename_i f hf
    exact .inr ⟨f, hf, by cases h; rfl⟩
  · cases h

/-- Everything a step that answers a next state can do: one host event between ticks, or one slot of a tick. -/
theorem step_eq_next {s t : State} (h : step s = .next t) :
    s.faulted = none ∧
      ((s.slots = 0 ∧ t = betweenTicks s) ∨ ∃ left, s.slots = left + 1 ∧ runSlot left s = .next t) := by
  unfold step at h
  split at h
  · cases h
  · rename_i hf
    refine ⟨hf, ?_⟩
    split at h
    · rename_i h0
      exact .inl ⟨h0, by cases h; rfl⟩
    · rename_i left hl
      exact .inr ⟨left, hl, h⟩

/-! ## The host events -/

/-- Everything `SetKey` can do (R200). -/
theorem setKey_eq (k : Fin 16) (p : Bool) (s : State) :
    setKey k p s = { s with
      keys := s.keys.set k.val p k.isLt
      lastKey := if p = true ∧ s.key k = false then k else s.lastKey
      keyJustPressed := if p = true ∧ s.key k = false then true else s.keyJustPressed } := by
  unfold setKey
  cases p <;> cases hk : s.key k <;> simp

@[simp] theorem State.key_setKey (k : Fin 16) (p : Bool) (s : State) (q : Fin 16) :
    (setKey k p s).key q = if q = k then p else s.key q := by
  simp only [setKey_eq, State.key, Vector.getElem_set, Fin.ext_iff, eq_comm]

/-- `LoadProgram` as an event: a load that is too long only sets `load_err` and records its length (R280,
R322, R323). -/
theorem loadEvent_eq (bytes : List Byte) (s : State) :
    loadEvent bytes s =
      if 3584 < bytes.length then { s with loadErr := true, loadLength := some bytes.length }
      else { s with
        mem := (s.memWriteList 0x200 bytes).mem
        PC := 0x200
        disp := blankDisplay
        running := true
        loadErr := false
        loadLength := none } := by
  unfold loadEvent loadProgram
  have : Config.romMax = 3584 := rfl
  rw [this]
  split
  · rename_i h
    split at h
    · cases h
    · rename_i hlen
      cases h
      rw [if_neg hlen]
      rw [State.memWriteList_eq]
      rfl
  · rename_i f h
    split at h
    · rename_i hlen; cases h; rw [if_pos hlen]; rfl
    · cases h
  · rename_i f h
    split at h <;> cases h

end Sys2Proof.Machine
end

