-- ==== Sys2Proof/Laws/Display.lean ====
section
/-! SUPPORT. What the sprite collider does, cell by cell (`44_display_sprite.md` R231 to R235): every cell a set bit
lands on is toggled, no other cell changes, and the flag is set when one of the toggled cells was set. -/

namespace Sys2Proof.Machine

/-- The `k`-th bit of a sprite byte from the left is bit `7 - k` (R233). -/
theorem spriteBits_getD (b : Byte) (k : Nat) :
    (spriteBits b).getD k false = (decide (k < 8) && b.getLsbD (7 - k)) := by
  by_cases hk : k < 8
  · simp [spriteBits, hk]
  · simp [spriteBits, hk]

/-- A bit list whose head stands at column `tx` hits column `c`. -/
def bitsHit (bs : List Bool) (tx c : Nat) : Bool := decide (tx ≤ c) && bs.getD (c - tx) false

theorem bitsHit_cons (b : Bool) (bs : List Bool) (tx c : Nat) :
    bitsHit (b :: bs) tx c = if c = tx then b else bitsHit bs (tx + 1) c := by
  unfold bitsHit
  by_cases h : c = tx
  · subst h; simp
  · by_cases hle : tx ≤ c
    · obtain ⟨k, rfl⟩ : ∃ k, c = tx + 1 + k := ⟨c - tx - 1, by omega⟩
      have h1 : tx + 1 + k - tx = k + 1 := by omega
      simp [h1, hle, h]
    · have : ¬ tx + 1 ≤ c := by omega
      simp [hle, this, h]

/-- One sprite row, cell by cell: a cell is toggled exactly where a set bit lands. -/
theorem drawBits_cell (bs : List Bool) (tx : Nat) (row : DispRow) (hit : Bool) (c : Nat) (hc : c < 64) :
    (drawBits bs tx row hit).1[c] = (row[c] ^^ bitsHit bs tx c) := by
  induction bs generalizing tx row hit with
  | nil => simp [drawBits, bitsHit]
  | cons b bs ih =>
    rw [bitsHit_cons]
    unfold drawBits
    cases b with
    | false =>
      simp only [Bool.false_eq_true, if_false, ih]
      by_cases h : c = tx
      · subst h; simp [bitsHit]
      · simp [h]
    | true =>
      simp only [if_true]
      split
      · rw [ih]
        by_cases h : c = tx
        · subst h; simp [bitsHit]
        · rw [if_neg h, Vector.getElem_set_ne _ _ (Ne.symm h)]
      · rename_i h64
        have h : c ≠ tx := by omega
        have h' : ¬ tx + 1 ≤ c := by omega
        simp [h, bitsHit, h']

/-- One sprite row, the flag: set before, or some set bit landed on a set cell. -/
theorem drawBits_hit (bs : List Bool) (tx : Nat) (row : DispRow) (hit : Bool) :
    (drawBits bs tx row hit).2 = true ↔
      hit = true ∨ ∃ c : Fin 64, bitsHit bs tx c = true ∧ row[c.val] = true := by
  induction bs generalizing tx row hit with
  | nil => simp [drawBits, bitsHit]
  | cons b bs ih =>
    simp only [bitsHit_cons]
    unfold drawBits
    cases b with
    | false =>
      simp only [Bool.false_eq_true, if_false, ih]
      refine or_congr_right (exists_congr fun c => and_congr_left fun _ => ?_)
      by_cases h : c.val = tx
      · simp [h, bitsHit]
      · simp [h]
    | true =>
      simp only [if_true]
      split
      · rename_i h64
        rw [ih]
        constructor
        · rintro (h | ⟨c, h1, h2⟩)
          · rcases Bool.or_eq_true_iff.mp h with h | h
            · exact .inl h
            · exact .inr ⟨⟨tx, h64⟩, by simp, h⟩
          · have hne : c.val ≠ tx := by rintro h; simp [bitsHit, h] at h1
            rw [Vector.getElem_set_ne _ _ (Ne.symm hne)] at h2
            exact .inr ⟨c, by simp [hne, h1], h2⟩
        · rintro (h | ⟨c, h1, h2⟩)
          · exact .inl (by simp [h])
          · by_cases hc : c.val = tx
            · exact .inl (by simp [← hc, h2])
            · rw [if_neg hc] at h1
              exact .inr ⟨c, h1, by rw [Vector.getElem_set_ne _ _ (Ne.symm hc)]; exact h2⟩
      · rename_i h64
        simp only [iff_self_or]
        rintro ⟨c, h1, _⟩
        have := c.isLt
        rw [if_neg (by omega)] at h1
        simp only [bitsHit, Bool.and_eq_true, decide_eq_true_eq] at h1
        omega

/-- A sprite whose first byte stands at row `ty` and column `x0` hits the cell of row `y`, column `x`. -/
def rowsHit (bytes : List Byte) (x0 ty y x : Nat) : Bool :=
  decide (ty ≤ y) && decide (y - ty < bytes.length) && bitsHit (spriteBits (bytes.getD (y - ty) 0)) x0 x

theorem rowsHit_cons (b : Byte) (bs : List Byte) (x0 ty y x : Nat) :
    rowsHit (b :: bs) x0 ty y x =
      if y = ty then bitsHit (spriteBits b) x0 x else rowsHit bs x0 (ty + 1) y x := by
  unfold rowsHit
  by_cases h : y = ty
  · subst h; simp
  · by_cases hle : ty ≤ y
    · obtain ⟨k, rfl⟩ : ∃ k, y = ty + 1 + k := ⟨y - ty - 1, by omega⟩
      have h1 : ty + 1 + k - ty = k + 1 := by omega
      simp [h1, hle, h]
    · have : ¬ ty + 1 ≤ y := by omega
      simp [hle, this, h]

/-- The whole sprite, cell by cell (R231 to R233). -/
theorem drawRows_cell (bytes : List Byte) (x0 ty : Nat) (d : Display) (hit : Bool) (y : Nat) (hy : y < 32) (x : Nat)
    (hx : x < 64) :
    (drawRows bytes x0 ty d hit).1[y][x] = (d[y][x] ^^ rowsHit bytes x0 ty y x) := by
  induction bytes generalizing ty d hit with
  | nil => simp [drawRows, rowsHit]
  | cons b bs ih =>
    rw [rowsHit_cons]
    unfold drawRows
    split
    · simp only [ih]
      by_cases h : y = ty
      · subst h
        have : rowsHit bs x0 (y + 1) y x = false := by simp [rowsHit]
        simp [this, drawBits_cell]
      · rw [if_neg h]
        simp [Vector.getElem_set_ne _ _ (Ne.symm h)]
    · rename_i h32
      have h : y ≠ ty := by omega
      have h' : ¬ ty + 1 ≤ y := by omega
      simp [h, rowsHit, h']

/-- The whole sprite, the flag (R235). -/
theorem drawRows_hit (bytes : List Byte) (x0 ty : Nat) (d : Display) (hit : Bool) :
    (drawRows bytes x0 ty d hit).2 = true ↔
      hit = true ∨ ∃ (y : Fin 32) (x : Fin 64), rowsHit bytes x0 ty y x = true ∧ d[y.val][x.val] = true := by
  induction bytes generalizing ty d hit with
  | nil => simp [drawRows, rowsHit]
  | cons b bs ih =>
    simp only [rowsHit_cons]
    unfold drawRows
    split
    · rename_i h32
      simp only [ih, drawBits_hit]
      constructor
      · rintro ((h | ⟨c, h1, h2⟩) | ⟨y, x, h1, h2⟩)
        · exact .inl h
        · exact .inr ⟨⟨ty, h32⟩, c, by simpa using h1, h2⟩
        · have hne : y.val ≠ ty := by rintro h; simp [rowsHit, h] at h1
          rw [Vector.getElem_set_ne _ _ (Ne.symm hne)] at h2
          exact .inr ⟨y, x, by rw [if_neg hne]; exact h1, h2⟩
      · rintro (h | ⟨y, x, h1, h2⟩)
        · exact .inl (.inl h)
        · by_cases hy : y.val = ty
          · subst hy
            exact .inl (.inr ⟨x, by simpa using h1, h2⟩)
          · rw [if_neg hy] at h1
            exact .inr ⟨y, x, h1, by rw [Vector.getElem_set_ne _ _ (Ne.symm hy)]; exact h2⟩
    · rename_i h32
      simp only [iff_self_or]
      rintro ⟨y, x, h1, _⟩
      have := y.isLt
      rw [if_neg (by omega)] at h1
      simp only [rowsHit, Bool.and_eq_true, decide_eq_true_eq] at h1
      omega

/-- The blank display has no cell set. -/
@[simp] theorem blankDisplay_cell (y : Nat) (hy : y < 32) (x : Nat) (hx : x < 64) : blankDisplay[y][x] = false := by
  simp [blankDisplay]

/-- Two displays that agree cell by cell are equal. -/
theorem display_ext {d e : Display} (h : ∀ (y : Nat) (hy : y < 32) (x : Nat) (hx : x < 64), d[y][x] = e[y][x]) :
    d = e := by
  ext y hy x hx
  simpa using h y hy x hx

end Sys2Proof.Machine
end

