-- ==== Sys2Proof/Laws/PerInstr.lean ====
section
/-! SUPPORT. The family RoundTrip, one lemma per constructor of `Instr`: decoding the canonical word of a well-formed
instruction gives it back (`30_encoding.md` R91, R94, R96). -/

namespace Sys2Proof.Laws

/-- The canonical word of a well-formed instruction decodes to it. -/
def RoundTrip.Statement (i : Instr) : Prop := i.wf = true → decode (encode i) = i

theorem RoundTrip.cls : Statement (.cls) := fun _ => rfl
theorem RoundTrip.ret : Statement (.ret) := fun _ => rfl
theorem RoundTrip.jp (nnn : Addr12) : Statement (.jp nnn) := by
  intro _
  obtain ⟨h1, h2⟩ := fields_packNnn (fam := 0x1) (by decide) nnn
  rw [encode]
  generalize packNnn 0x1 nnn = w at *
  simp [decode, h1, h2]

theorem RoundTrip.call (nnn : Addr12) : Statement (.call nnn) := by
  intro _
  obtain ⟨h1, h2⟩ := fields_packNnn (fam := 0x2) (by decide) nnn
  rw [encode]
  generalize packNnn 0x2 nnn = w at *
  simp [decode, h1, h2]

theorem RoundTrip.seImm (x : Reg) (nn : Byte) : Statement (.seImm x nn) := by
  intro _
  obtain ⟨h1, h2, h3⟩ := fields_packXNn (fam := 0x3) (by decide) x nn
  rw [encode]
  generalize packXNn 0x3 x nn = w at *
  simp [decode, h1, h2, h3]

theorem RoundTrip.sneImm (x : Reg) (nn : Byte) : Statement (.sneImm x nn) := by
  intro _
  obtain ⟨h1, h2, h3⟩ := fields_packXNn (fam := 0x4) (by decide) x nn
  rw [encode]
  generalize packXNn 0x4 x nn = w at *
  simp [decode, h1, h2, h3]

theorem RoundTrip.seReg (x y : Reg) : Statement (.seReg x y) := by
  intro _
  obtain ⟨h1, h2, h3, -⟩ := fields_packXYN (fam := 0x5) (by decide) x y 0x0
  rw [encode]
  generalize packXYN 0x5 x y 0x0 = w at *
  simp [decode, h1, h2, h3]

theorem RoundTrip.ldImm (x : Reg) (nn : Byte) : Statement (.ldImm x nn) := by
  intro _
  obtain ⟨h1, h2, h3⟩ := fields_packXNn (fam := 0x6) (by decide) x nn
  rw [encode]
  generalize packXNn 0x6 x nn = w at *
  simp [decode, h1, h2, h3]

theorem RoundTrip.addImm (x : Reg) (nn : Byte) : Statement (.addImm x nn) := by
  intro _
  obtain ⟨h1, h2, h3⟩ := fields_packXNn (fam := 0x7) (by decide) x nn
  rw [encode]
  generalize packXNn 0x7 x nn = w at *
  simp [decode, h1, h2, h3]

theorem RoundTrip.ldReg (x y : Reg) : Statement (.ldReg x y) := by
  intro _
  obtain ⟨h1, h2, h3, h4⟩ := fields_packXYN (fam := 0x8) (by decide) x y 0x0
  rw [encode]
  generalize packXYN 0x8 x y 0x0 = w at *
  simp [decode, decodeFamily8, h1, h2, h3, h4]

theorem RoundTrip.orReg (x y : Reg) : Statement (.orReg x y) := by
  intro _
  obtain ⟨h1, h2, h3, h4⟩ := fields_packXYN (fam := 0x8) (by decide) x y 0x1
  rw [encode]
  generalize packXYN 0x8 x y 0x1 = w at *
  simp [decode, decodeFamily8, h1, h2, h3, h4]

theorem RoundTrip.andReg (x y : Reg) : Statement (.andReg x y) := by
  intro _
  obtain ⟨h1, h2, h3, h4⟩ := fields_packXYN (fam := 0x8) (by decide) x y 0x2
  rw [encode]
  generalize packXYN 0x8 x y 0x2 = w at *
  simp [decode, decodeFamily8, h1, h2, h3, h4]

theorem RoundTrip.xorReg (x y : Reg) : Statement (.xorReg x y) := by
  intro _
  obtain ⟨h1, h2, h3, h4⟩ := fields_packXYN (fam := 0x8) (by decide) x y 0x3
  rw [encode]
  generalize packXYN 0x8 x y 0x3 = w at *
  simp [decode, decodeFamily8, h1, h2, h3, h4]

theorem RoundTrip.addReg (x y : Reg) : Statement (.addReg x y) := by
  intro _
  obtain ⟨h1, h2, h3, h4⟩ := fields_packXYN (fam := 0x8) (by decide) x y 0x4
  rw [encode]
  generalize packXYN 0x8 x y 0x4 = w at *
  simp [decode, decodeFamily8, h1, h2, h3, h4]

theorem RoundTrip.subReg (x y : Reg) : Statement (.subReg x y) := by
  intro _
  obtain ⟨h1, h2, h3, h4⟩ := fields_packXYN (fam := 0x8) (by decide) x y 0x5
  rw [encode]
  generalize packXYN 0x8 x y 0x5 = w at *
  simp [decode, decodeFamily8, h1, h2, h3, h4]

theorem RoundTrip.shrReg (x y : Reg) : Statement (.shrReg x y) := by
  intro _
  obtain ⟨h1, h2, h3, h4⟩ := fields_packXYN (fam := 0x8) (by decide) x y 0x6
  rw [encode]
  generalize packXYN 0x8 x y 0x6 = w at *
  simp [decode, decodeFamily8, h1, h2, h3, h4]

theorem RoundTrip.subnReg (x y : Reg) : Statement (.subnReg x y) := by
  intro _
  obtain ⟨h1, h2, h3, h4⟩ := fields_packXYN (fam := 0x8) (by decide) x y 0x7
  rw [encode]
  generalize packXYN 0x8 x y 0x7 = w at *
  simp [decode, decodeFamily8, h1, h2, h3, h4]

theorem RoundTrip.shlReg (x y : Reg) : Statement (.shlReg x y) := by
  intro _
  obtain ⟨h1, h2, h3, h4⟩ := fields_packXYN (fam := 0x8) (by decide) x y 0xE
  rw [encode]
  generalize packXYN 0x8 x y 0xE = w at *
  simp [decode, decodeFamily8, h1, h2, h3, h4]

theorem RoundTrip.sneReg (x y : Reg) : Statement (.sneReg x y) := by
  intro _
  obtain ⟨h1, h2, h3, -⟩ := fields_packXYN (fam := 0x9) (by decide) x y 0x0
  rw [encode]
  generalize packXYN 0x9 x y 0x0 = w at *
  simp [decode, h1, h2, h3]

theorem RoundTrip.ldI (nnn : Addr12) : Statement (.ldI nnn) := by
  intro _
  obtain ⟨h1, h2⟩ := fields_packNnn (fam := 0xA) (by decide) nnn
  rw [encode]
  generalize packNnn 0xA nnn = w at *
  simp [decode, h1, h2]

theorem RoundTrip.jpV0 (nnn : Addr12) : Statement (.jpV0 nnn) := by
  intro _
  obtain ⟨h1, h2⟩ := fields_packNnn (fam := 0xB) (by decide) nnn
  rw [encode]
  generalize packNnn 0xB nnn = w at *
  simp [decode, h1, h2]

theorem RoundTrip.rnd (x : Reg) (nn : Byte) : Statement (.rnd x nn) := by
  intro _
  obtain ⟨h1, h2, h3⟩ := fields_packXNn (fam := 0xC) (by decide) x nn
  rw [encode]
  generalize packXNn 0xC x nn = w at *
  simp [decode, h1, h2, h3]

theorem RoundTrip.drw (x y : Reg) (n : Nibble) : Statement (.drw x y n) := by
  intro _
  obtain ⟨h1, h2, h3, h4⟩ := fields_packXYN (fam := 0xD) (by decide) x y n
  rw [encode]
  generalize packXYN 0xD x y n = w at *
  simp [decode, h1, h2, h3, h4]

theorem RoundTrip.skp (x : Reg) : Statement (.skp x) := by
  intro _
  obtain ⟨h1, h2, h3⟩ := fields_packXNn (fam := 0xE) (by decide) x 0x9E
  rw [encode]
  generalize packXNn 0xE x 0x9E = w at *
  simp [decode, decodeFamilyE, h1, h2, h3]

theorem RoundTrip.sknp (x : Reg) : Statement (.sknp x) := by
  intro _
  obtain ⟨h1, h2, h3⟩ := fields_packXNn (fam := 0xE) (by decide) x 0xA1
  rw [encode]
  generalize packXNn 0xE x 0xA1 = w at *
  simp [decode, decodeFamilyE, h1, h2, h3]

theorem RoundTrip.ldVxDt (x : Reg) : Statement (.ldVxDt x) := by
  intro _
  obtain ⟨h1, h2, h3⟩ := fields_packXNn (fam := 0xF) (by decide) x 0x07
  rw [encode]
  generalize packXNn 0xF x 0x07 = w at *
  simp [decode, decodeFamilyF, h1, h2, h3]

theorem RoundTrip.ldVxK (x : Reg) : Statement (.ldVxK x) := by
  intro _
  obtain ⟨h1, h2, h3⟩ := fields_packXNn (fam := 0xF) (by decide) x 0x0A
  rw [encode]
  generalize packXNn 0xF x 0x0A = w at *
  simp [decode, decodeFamilyF, h1, h2, h3]

theorem RoundTrip.ldDtVx (x : Reg) : Statement (.ldDtVx x) := by
  intro _
  obtain ⟨h1, h2, h3⟩ := fields_packXNn (fam := 0xF) (by decide) x 0x15
  rw [encode]
  generalize packXNn 0xF x 0x15 = w at *
  simp [decode, decodeFamilyF, h1, h2, h3]

theorem RoundTrip.ldStVx (x : Reg) : Statement (.ldStVx x) := by
  intro _
  obtain ⟨h1, h2, h3⟩ := fields_packXNn (fam := 0xF) (by decide) x 0x18
  rw [encode]
  generalize packXNn 0xF x 0x18 = w at *
  simp [decode, decodeFamilyF, h1, h2, h3]

theorem RoundTrip.addI (x : Reg) : Statement (.addI x) := by
  intro _
  obtain ⟨h1, h2, h3⟩ := fields_packXNn (fam := 0xF) (by decide) x 0x1E
  rw [encode]
  generalize packXNn 0xF x 0x1E = w at *
  simp [decode, decodeFamilyF, h1, h2, h3]

theorem RoundTrip.ldF (x : Reg) : Statement (.ldF x) := by
  intro _
  obtain ⟨h1, h2, h3⟩ := fields_packXNn (fam := 0xF) (by decide) x 0x29
  rw [encode]
  generalize packXNn 0xF x 0x29 = w at *
  simp [decode, decodeFamilyF, h1, h2, h3]

theorem RoundTrip.ldB (x : Reg) : Statement (.ldB x) := by
  intro _
  obtain ⟨h1, h2, h3⟩ := fields_packXNn (fam := 0xF) (by decide) x 0x33
  rw [encode]
  generalize packXNn 0xF x 0x33 = w at *
  simp [decode, decodeFamilyF, h1, h2, h3]

theorem RoundTrip.ldMemVx (x : Reg) : Statement (.ldMemVx x) := by
  intro _
  obtain ⟨h1, h2, h3⟩ := fields_packXNn (fam := 0xF) (by decide) x 0x55
  rw [encode]
  generalize packXNn 0xF x 0x55 = w at *
  simp [decode, decodeFamilyF, h1, h2, h3]

theorem RoundTrip.ldVxMem (x : Reg) : Statement (.ldVxMem x) := by
  intro _
  obtain ⟨h1, h2, h3⟩ := fields_packXNn (fam := 0xF) (by decide) x 0x65
  rw [encode]
  generalize packXNn 0xF x 0x65 = w at *
  simp [decode, decodeFamilyF, h1, h2, h3]

theorem RoundTrip.nop0 (nnn : Addr12) : Statement (.nop0 nnn) := by
  intro h
  obtain ⟨h1, h2⟩ := fields_packNnn (fam := 0x0) (by decide) nnn
  simp [Instr.wf, family0Defined] at h
  have h3 : packNnn 0 nnn ≠ 0x00E0 := fun h' => h.1 (packNnn_zero_eq.mp h')
  have h4 : packNnn 0 nnn ≠ 0x00EE := fun h' => h.2 (packNnn_zero_eq.mp h')
  rw [encode]
  generalize packNnn 0x0 nnn = w at *
  simp_all [decode, decodeFamily0]

theorem RoundTrip.nop8 (x y : Reg) (n : Nibble) : Statement (.nop8 x y n) := by
  intro h
  obtain ⟨h1, h2, h3, h4⟩ := fields_packXYN (fam := 0x8) (by decide) x y n
  simp [Instr.wf, family8Defined] at h
  rw [encode]
  generalize packXYN 0x8 x y n = w at *
  simp_all [decode, decodeFamily8]

theorem RoundTrip.nopE (x : Reg) (nn : Byte) : Statement (.nopE x nn) := by
  intro h
  obtain ⟨h1, h2, h3⟩ := fields_packXNn (fam := 0xE) (by decide) x nn
  simp [Instr.wf, familyEDefined] at h
  rw [encode]
  generalize packXNn 0xE x nn = w at *
  simp_all [decode, decodeFamilyE]

theorem RoundTrip.nopF (x : Reg) (nn : Byte) : Statement (.nopF x nn) := by
  intro h
  obtain ⟨h1, h2, h3⟩ := fields_packXNn (fam := 0xF) (by decide) x nn
  simp [Instr.wf, familyFDefined] at h
  rw [encode]
  generalize packXNn 0xF x nn = w at *
  simp_all [decode, decodeFamilyF]


end Sys2Proof.Laws
end

