-- ==== Sys2Proof/Machine/Assembly.lean ====
section
/-! DEFINITION. The assembler syntax of `30_encoding.md` R103 and the data directives of R104: how an instruction is
written, and the bytes a directive places. Presentation only: no step reads it. -/

namespace Sys2Proof.Assembly

/-- The digits as R103 writes them in `V0` .. `VF`, each at the place of its value. -/
def digitChars : List Char := "0123456789ABCDEF".toList

/-- One hexadecimal digit. -/
def hexDigit (d : Nat) : String := String.ofList [digitChars.getD d '?']

/-- A number of `k` hexadecimal digits. -/
def hexDigits : Nat → Nat → String
  | 0, _ => ""
  | k + 1, v => hexDigits k (v / 16) ++ hexDigit (v % 16)

/-- `Vx`: `V0`..`V9`, `VA`..`VF` (R103). -/
def regName (r : Reg) : String := "V" ++ hexDigit r.val

/-- A byte operand, `0x..` (R103). -/
def byteText (b : Byte) : String := "0x" ++ hexDigits 2 b.toNat

/-- An address operand, `0x...` (R103). -/
def addrText (a : Addr12) : String := "0x" ++ hexDigits 3 a.toNat

/-- A nibble operand, `0x.` (R103). -/
def nibbleText (n : Nibble) : String := "0x" ++ hexDigits 1 n.toNat

/-- A mnemonic with two operands. -/
def two (op a b : String) : String := op ++ " " ++ a ++ ", " ++ b

/-- An unknown encoding, written `.word 0xNNNN ; NOP` (R104). -/
def nopText (i : Instr) : String := ".word 0x" ++ hexDigits 4 (encode i).toNat ++ " ; NOP"

/-- The source line of an instruction (R96, R103, R104). -/
def asm : Instr → String
  | .cls => "CLS"
  | .ret => "RET"
  | .jp nnn => "JP " ++ addrText nnn
  | .call nnn => "CALL " ++ addrText nnn
  | .seImm x nn => two "SE" (regName x) (byteText nn)
  | .sneImm x nn => two "SNE" (regName x) (byteText nn)
  | .seReg x y => two "SE" (regName x) (regName y)
  | .ldImm x nn => two "LD" (regName x) (byteText nn)
  | .addImm x nn => two "ADD" (regName x) (byteText nn)
  | .ldReg x y => two "LD" (regName x) (regName y)
  | .orReg x y => two "OR" (regName x) (regName y)
  | .andReg x y => two "AND" (regName x) (regName y)
  | .xorReg x y => two "XOR" (regName x) (regName y)
  | .addReg x y => two "ADD" (regName x) (regName y)
  | .subReg x y => two "SUB" (regName x) (regName y)
  | .shrReg x y => two "SHR" (regName x) (regName y)
  | .subnReg x y => two "SUBN" (regName x) (regName y)
  | .shlReg x y => two "SHL" (regName x) (regName y)
  | .sneReg x y => two "SNE" (regName x) (regName y)
  | .ldI nnn => two "LD" "I" (addrText nnn)
  | .jpV0 nnn => two "JP" "V0" (addrText nnn)
  | .rnd x nn => two "RND" (regName x) (byteText nn)
  | .drw x y n => two "DRW" (regName x) (regName y) ++ ", " ++ nibbleText n
  | .skp x => "SKP " ++ regName x
  | .sknp x => "SKNP " ++ regName x
  | .ldVxDt x => two "LD" (regName x) "DT"
  | .ldVxK x => two "LD" (regName x) "K"
  | .ldDtVx x => two "LD" "DT" (regName x)
  | .ldStVx x => two "LD" "ST" (regName x)
  | .addI x => two "ADD" "I" (regName x)
  | .ldF x => two "LD" "F" (regName x)
  | .ldB x => two "LD" "B" (regName x)
  | .ldMemVx x => two "LD" "[I]" (regName x)
  | .ldVxMem x => two "LD" (regName x) "[I]"
  | .nop0 nnn => nopText (.nop0 nnn)
  | .nop8 x y n => nopText (.nop8 x y n)
  | .nopE x nn => nopText (.nopE x nn)
  | .nopF x nn => nopText (.nopF x nn)

/-- One item of a program: an instruction or a data directive (R104). Labels stand for addresses and place nothing. -/
inductive Item where
  /-- an instruction -/
  | instr (i : Instr)
  /-- `.word 0xNNNN` -/
  | word (w : Word)
  /-- `.byte 0xNN` -/
  | byte (b : Byte)
  deriving DecidableEq, Repr

/-- The bytes an item places, words big-endian (R67, R104). -/
def Item.bytes : Item → List Byte
  | .instr i => encodeBytes i
  | .word w => [wordHi w, wordLo w]
  | .byte b => [b]

/-- The ROM of a program: its items' bytes in order (R104). -/
def rom (items : List Item) : List Byte := (items.map Item.bytes).flatten

end Sys2Proof.Assembly
end

