-- ==== Sys2Proof/Machine/Assembler.lean ====
section
/-! DEFINITION. Reading the assembler syntax of `30_encoding.md` R103 and the directives of R104: source lines to the
bytes of a ROM loaded at `PROG_BASE`. Presentation only (decision D26; log 19): no step reads it. -/

namespace Sys2Proof.Assembly

/-- The literal operand keywords of R103. -/
inductive Keyword where
  /-- `I` -/
  | index
  /-- `DT` -/
  | delay
  /-- `ST` -/
  | sound
  /-- `K` -/
  | key
  /-- `F` -/
  | font
  /-- `B` -/
  | bcd
  /-- `[I]` -/
  | memory
  deriving DecidableEq, Repr

/-- An operand as read (R103); a label reads as the address it stands for. -/
inductive Operand where
  /-- `V0` .. `VF` -/
  | reg (r : Reg)
  /-- a number or a label -/
  | num (v : Nat)
  /-- a keyword -/
  | word (k : Keyword)
  deriving DecidableEq, Repr

/-- A source line: the label it defines, if any, and what is left of it. -/
structure SourceLine where
  /-- the name before `:` -/
  label : Option (List Char)
  /-- mnemonic or directive with its operands, empty for none -/
  body : List Char
  deriving DecidableEq, Repr

/-- A space or a tab. -/
def isBlank (c : Char) : Bool := c = ' ' || c = '\t'

/-- Blanks dropped at both ends. -/
def trimBlanks (cs : List Char) : List Char := ((cs.dropWhile isBlank).reverse.dropWhile isBlank).reverse

/-- The parts between commas (R103). -/
def splitCommas : List Char → List (List Char)
  | [] => [[]]
  | c :: cs =>
    if c = ',' then [] :: splitCommas cs
    else match splitCommas cs with
      | [] => [[c]]
      | w :: ws => (c :: w) :: ws

/-- The value of a digit is its place among the digits of R103; the small letters stand for the capitals (log 19). -/
def digitValue (c : Char) : Option Nat :=
  match digitChars.idxOf? c with
  | some place => some place
  | none => ("abcdef".toList.idxOf? c).map (10 + ·)

/-- Digits read in a base, after what was read so far. -/
def digitsFrom (base : Nat) : Nat → List Char → Option Nat
  | acc, [] => some acc
  | acc, c :: cs =>
    match digitValue c with
    | some d => if d < base then digitsFrom base (acc * base + d) cs else none
    | none => none

/-- A number: hexadecimal after `0x`, else decimal (R103). -/
def readNumber : List Char → Option Nat
  | [] => none
  | ['0', 'x'] => none
  | '0' :: 'x' :: ds => digitsFrom 16 0 ds
  | ds => digitsFrom 10 0 ds

/-- A register name, `V0` .. `V9`, `VA` .. `VF` (R103). -/
def readReg : List Char → Option Reg
  | ['V', d] =>
    match digitValue d with
    | some v => if h : v < 16 then some ⟨v, h⟩ else none
    | none => none
  | _ => none

/-- A keyword (R103). -/
def readKeyword (cs : List Char) : Option Keyword :=
  if cs = ['I'] then some .index
  else if cs = ['D', 'T'] then some .delay
  else if cs = ['S', 'T'] then some .sound
  else if cs = ['K'] then some .key
  else if cs = ['F'] then some .font
  else if cs = ['B'] then some .bcd
  else if cs = ['[', 'I', ']'] then some .memory
  else none

/-- The labels of a program with their addresses. -/
abbrev Labels := List (List Char × Nat)

/-- The address of a label. -/
def Labels.find : Labels → List Char → Option Nat
  | [], _ => none
  | (name, a) :: rest, cs => if name = cs then some a else Labels.find rest cs

/-- An operand: a register, a keyword, a number, or a label (R103). -/
def readOperand (labels : Labels) (cs : List Char) : Option Operand :=
  match readReg cs, readKeyword cs, readNumber cs, labels.find cs with
  | some r, _, _, _ => some (.reg r)
  | none, some k, _, _ => some (.word k)
  | none, none, some v, _ => some (.num v)
  | none, none, none, some a => some (.num a)
  | none, none, none, none => none

/-- A byte operand in range. -/
def asByte (v : Nat) : Option Byte := if v < 256 then some (BitVec.ofNat 8 v) else none

/-- An address operand in range. -/
def asAddr (v : Nat) : Option Addr12 := if v < 4096 then some (BitVec.ofNat 12 v) else none

/-- A nibble operand in range. -/
def asNibble (v : Nat) : Option Nibble := if v < 16 then some (BitVec.ofNat 4 v) else none

/-- A word operand in range. -/
def asWord (v : Nat) : Option Word := if v < 65536 then some (BitVec.ofNat 16 v) else none

/-- `LD` in its eleven forms (the table of R96). -/
def buildLd : List Operand → Option Instr
  | [.reg x, .num v] => (asByte v).map (.ldImm x)
  | [.reg x, .reg y] => some (.ldReg x y)
  | [.word .index, .num v] => (asAddr v).map .ldI
  | [.reg x, .word .delay] => some (.ldVxDt x)
  | [.reg x, .word .key] => some (.ldVxK x)
  | [.word .delay, .reg x] => some (.ldDtVx x)
  | [.word .sound, .reg x] => some (.ldStVx x)
  | [.word .font, .reg x] => some (.ldF x)
  | [.word .bcd, .reg x] => some (.ldB x)
  | [.word .memory, .reg x] => some (.ldMemVx x)
  | [.reg x, .word .memory] => some (.ldVxMem x)
  | _ => none

/-- `ADD` in its three forms (the table of R96). -/
def buildAdd : List Operand → Option Instr
  | [.reg x, .num v] => (asByte v).map (.addImm x)
  | [.reg x, .reg y] => some (.addReg x y)
  | [.word .index, .reg x] => some (.addI x)
  | _ => none

/-- `JP` in its two forms; the offset register is written `V0` in every mode (R103). -/
def buildJp : List Operand → Option Instr
  | [.num v] => (asAddr v).map .jp
  | [.reg x, .num v] => if x = 0 then (asAddr v).map .jpV0 else none
  | _ => none

/-- A mnemonic with a register and a byte or a second register. -/
def buildCompare (imm : Reg → Byte → Instr) (reg : Reg → Reg → Instr) : List Operand → Option Instr
  | [.reg x, .num v] => (asByte v).map (imm x)
  | [.reg x, .reg y] => some (reg x y)
  | _ => none

/-- A mnemonic with two registers. -/
def buildRegs (reg : Reg → Reg → Instr) : List Operand → Option Instr
  | [.reg x, .reg y] => some (reg x y)
  | _ => none

/-- A mnemonic with one register. -/
def buildReg (reg : Reg → Instr) : List Operand → Option Instr
  | [.reg x] => some (reg x)
  | _ => none

/-- A mnemonic with no operand. -/
def buildPlain (i : Instr) : List Operand → Option Instr
  | [] => some i
  | _ => none

/-- `CALL`. -/
def buildCall : List Operand → Option Instr
  | [.num v] => (asAddr v).map .call
  | _ => none

/-- `RND`. -/
def buildRnd : List Operand → Option Instr
  | [.reg x, .num v] => (asByte v).map (.rnd x)
  | _ => none

/-- `DRW`. -/
def buildDrw : List Operand → Option Instr
  | [.reg x, .reg y, .num v] => (asNibble v).map (.drw x y)
  | _ => none

/-- The mnemonics of R96 with how each reads its operands. -/
def mnemonics : List (String × (List Operand → Option Instr)) :=
  [("CLS", buildPlain .cls), ("RET", buildPlain .ret), ("JP", buildJp), ("CALL", buildCall),
   ("SE", buildCompare .seImm .seReg), ("SNE", buildCompare .sneImm .sneReg), ("LD", buildLd), ("ADD", buildAdd),
   ("OR", buildRegs .orReg), ("AND", buildRegs .andReg), ("XOR", buildRegs .xorReg), ("SUB", buildRegs .subReg)] ++
  [("SHR", buildRegs .shrReg), ("SUBN", buildRegs .subnReg), ("SHL", buildRegs .shlReg), ("RND", buildRnd),
   ("DRW", buildDrw), ("SKP", buildReg .skp), ("SKNP", buildReg .sknp)]

/-- The instruction of a mnemonic and its operands. -/
def buildInstr (op : List Char) (operands : List Operand) : Option Instr :=
  match mnemonics.find? fun m => decide (m.1.toList = op) with
  | some m => m.2 operands
  | none => none

/-- The item of a line: a directive (R104) or an instruction. -/
def buildItem (op : List Char) (operands : List Operand) : Option Item :=
  if op = ['.', 'w', 'o', 'r', 'd'] then
    match operands with
    | [.num v] => (asWord v).map .word
    | _ => none
  else if op = ['.', 'b', 'y', 't', 'e'] then
    match operands with
    | [.num v] => (asByte v).map .byte
    | _ => none
  else (buildInstr op operands).map .instr

/-- A line read: the comment dropped, the label split off (R103). -/
def readLine (line : String) : SourceLine :=
  let cs := line.toList.takeWhile (· ≠ ';')
  if cs.contains ':' then
    { label := some (trimBlanks (cs.takeWhile (· ≠ ':'))), body := trimBlanks ((cs.dropWhile (· ≠ ':')).drop 1) }
  else { label := none, body := trimBlanks cs }

/-- The mnemonic or directive of a body. -/
def operator (body : List Char) : List Char := body.takeWhile fun c => !isBlank c

/-- The operands of a body, as text. -/
def operandTexts (body : List Char) : List (List Char) :=
  match trimBlanks (body.dropWhile fun c => !isBlank c) with
  | [] => []
  | c :: cs => (splitCommas (c :: cs)).map trimBlanks

/-- How many bytes a line places: none, one for `.byte`, else two (R90, R104). -/
def SourceLine.size (l : SourceLine) : Nat :=
  if l.body = [] then 0 else if operator l.body = ['.', 'b', 'y', 't', 'e'] then 1 else 2

/-- The labels of a program, each with the address of the next instruction (R103). -/
def collectLabels : Nat → List SourceLine → Labels
  | _, [] => []
  | a, l :: ls =>
    match l.label with
    | some name => (name, a) :: collectLabels (a + l.size) ls
    | none => collectLabels (a + l.size) ls

/-- All of a list's values, or none. -/
def allSome {α : Type} : List (Option α) → Option (List α)
  | [] => some []
  | none :: _ => none
  | some a :: rest => (allSome rest).map (a :: ·)

/-- The bytes of a line. -/
def SourceLine.bytes (labels : Labels) (l : SourceLine) : Option (List Byte) :=
  if l.body = [] then some []
  else
    match allSome ((operandTexts l.body).map (readOperand labels)) with
    | some operands => (buildItem (operator l.body) operands).map Item.bytes
    | none => none

/-- The ROM of a program's source lines, loaded at `PROG_BASE`; `none` where a line has no meaning (R103, R104). -/
def assemble (lines : List String) : Option (List Byte) :=
  let source := lines.map readLine
  (allSome (source.map (SourceLine.bytes (collectLabels Config.progBase source)))).map List.flatten

end Sys2Proof.Assembly
end

