-- ==== Sys2Proof/Tests/Slice0.lean ====
section
/-! SUPPORT. The model's own tests. Expected values are the rows of `spec/95_test_vectors.md` (cited as W, V, K, S, E) and
the encodings of `30_encoding.md` R96, written out bit by bit. Each instruction test is ONE step on a small state. The
`witness_` theorems show that the hypotheses of every statement can be met, at the boundary of each clause. -/

namespace Sys2Proof.Tests

open Sys2Proof Sys2Proof.Machine

/-! ## Helpers -/

/-- What `f` reads in the next state, `none` where there is none. -/
def read {α : Type} (f : State → α) : Result → Option α
  | .next t => some (f t)
  | .fault _ => none
  | .refused _ => none

/-- The fault of an outcome. -/
def faultOf : Result → Option Fault
  | .next _ => none
  | .fault f => some f
  | .refused _ => none

/-- Registers set one after the other. -/
def regs (l : List (Reg × Byte)) (s : State) : State := l.foldl (fun s c => s.setReg c.1 c.2) s

/-- The state after reset with the registers listed. -/
def start (l : List (Reg × Byte)) : State := regs l State.reset

/-- One step that runs the word `w`. -/
def one (w : Nat) (s : State) : Result := step (s.withFetchWord 16 w)

/-- The cells of a row that are set. -/
def rowCells (s : State) (y : Fin 32) : List Nat := (List.range 64).filter fun x => (s.disp[y.val].toList).getD x false

/-- The state after reset with one display cell set. -/
def withCell (y : Fin 32) (x : Fin 64) (s : State) : State :=
  { s with disp := s.disp.set y.val (s.disp[y.val].set x.val true) }

/-- A running tick under way with all its slots left. -/
def ready : State := { State.reset with running := true, slots := 15 }

/-! ## Decoding: words written out from the table of R96 -/

theorem test_decode_family_0 :
    decode 0b0000000011100000 = .cls ∧ decode 0b0000000011101110 = .ret ∧ decode 0b0000000011100001 = .nop0 0x0E1 := by
  decide

theorem test_decode_addresses :
    decode 0b0001101010111100 = .jp 0xABC ∧ decode 0b0010101010111100 = .call 0xABC ∧
      decode 0b1010111100000001 = .ldI 0xF01 ∧ decode 0b1011001011111111 = .jpV0 0x2FF := by
  decide

theorem test_decode_immediates :
    decode 0b0011101000000101 = .seImm 10 0x05 ∧ decode 0b0100101000000101 = .sneImm 10 0x05 ∧
      decode 0b0110101000101111 = .ldImm 10 0x2F ∧ decode 0b0111101011111111 = .addImm 10 0xFF ∧
      decode 0b1100001100001111 = .rnd 3 0x0F := by
  decide

theorem test_decode_compares :
    decode 0b0101000100100000 = .seReg 1 2 ∧ decode 0b0101000100101111 = .seReg 1 2 ∧
      decode 0b1001000100100000 = .sneReg 1 2 ∧ decode 0b1001000100100001 = .sneReg 1 2 := by
  decide

theorem test_decode_family_8 :
    decode 0b1000000100100000 = .ldReg 1 2 ∧ decode 0b1000000100100001 = .orReg 1 2 ∧
      decode 0b1000000100100010 = .andReg 1 2 ∧ decode 0b1000000100100011 = .xorReg 1 2 ∧
      decode 0b1000000100100100 = .addReg 1 2 ∧ decode 0b1000000100100101 = .subReg 1 2 ∧
      decode 0b1000000100100110 = .shrReg 1 2 ∧ decode 0b1000000100100111 = .subnReg 1 2 ∧
      decode 0b1000000100101110 = .shlReg 1 2 ∧ decode 0b1000000100101000 = .nop8 1 2 8 := by
  decide

theorem test_decode_families_d_and_e :
    decode 0b1101000100100101 = .drw 1 2 5 ∧ decode 0b1110000110011110 = .skp 1 ∧
      decode 0b1110000110100001 = .sknp 1 ∧ decode 0b1110000100000000 = .nopE 1 0x00 := by
  decide

theorem test_decode_family_f :
    decode 0b1111010000000111 = .ldVxDt 4 ∧ decode 0b1111001100001010 = .ldVxK 3 ∧
      decode 0b1111010000010101 = .ldDtVx 4 ∧ decode 0b1111010000011000 = .ldStVx 4 ∧
      decode 0b1111000100011110 = .addI 1 ∧ decode 0b1111001100101001 = .ldF 3 ∧
      decode 0b1111001000110011 = .ldB 2 ∧ decode 0b1111001001010101 = .ldMemVx 2 ∧
      decode 0b1111001001100101 = .ldVxMem 2 ∧ decode 0b1111000111111111 = .nopF 1 0xFF := by
  decide

theorem test_decode_bytes_big_endian_and_truncated :
    decodeBytes [0x6A, 0x2F, 0x00] = .ok (.ldImm 10 0x2F, [0x00]) ∧ decodeBytes [0x6A] = .error .truncated ∧
      decodeBytes [] = .error .truncated :=
  ⟨rfl, rfl, rfl⟩

theorem test_encode_is_the_word_of_the_table :
    encode (.shlReg 1 2) = 0b1000000100101110 ∧ encode (.seReg 1 2) = 0b0101000100100000 ∧
      encode (.ldVxMem 15) = 0b1111111101100101 := by
  decide

/-! ## Well-formedness: each check refuses an ill-formed term -/

theorem test_wf_refuses_family_0 : (Instr.nop0 0x0E0).wf = false ∧ (Instr.nop0 0x0EE).wf = false := by decide

theorem test_wf_refuses_family_8 :
    ∀ n : Nibble, n ∈ ([0, 1, 2, 3, 4, 5, 6, 7, 0xE] : List Nibble) → (Instr.nop8 1 2 n).wf = false := by decide

theorem test_wf_refuses_family_e : (Instr.nopE 1 0x9E).wf = false ∧ (Instr.nopE 1 0xA1).wf = false := by decide

theorem test_wf_refuses_family_f :
    ∀ b ∈ ([0x07, 0x0A, 0x15, 0x18, 0x1E, 0x29, 0x33, 0x55, 0x65] : List Byte), (Instr.nopF 1 b).wf = false := by decide

theorem test_wf_accepts_the_rest :
    (Instr.nop0 0x123).wf = true ∧ (Instr.nop8 1 2 8).wf = true ∧ (Instr.nopE 1 0).wf = true ∧
      (Instr.nopF 1 0xFF).wf = true ∧ Instr.cls.wf = true := by
  decide

/-! ## Control transfer -/

/-- V2, V4, V5, V6 -/
theorem test_nop_advances :
    read (·.PC) (one 0x0123 (start [])) = some 0x0202 ∧
      read (fun t => (t.PC, t.reg 1, t.reg 15)) (one 0x8128 (start [(1, 5), (2, 6)])) = some (0x0202, 5, 0) ∧
      read (·.PC) (one 0xE100 (start [])) = some 0x0202 ∧ read (·.PC) (one 0xF1FF (start [])) = some 0x0202 := by
  decide

/-- V8 -/
theorem test_jp : read (·.PC) (one 0x1FFF (start [])) = some 0x0FFF := by decide

/-- V10 -/
theorem test_call : read (fun t => (t.PC, t.SP, t.slot 15)) (one 0x2ABC { start [] with SP := 15 }) =
    some (0x0ABC, 16, 0x0202) := by decide

/-- V11: the fault itself -/
theorem test_call_overflow : faultOf (exec (.call 0xABC) { start [] with SP := 16 }) = some .stackOverflow := by decide

/-- V11a -/
theorem test_ret : read (fun t => (t.PC, t.SP, t.slot 1))
    (one 0x00EE { start [] with SP := 2, stack := (State.reset.stack.set 0 0x0204).set 1 0x0456 }) =
      some (0x0456, 1, 0x0456) := by decide

/-- V11b: the fault, its record, and the step after it -/
theorem test_ret_underflow : faultOf (exec .ret (start [])) = some .stackUnderflow ∧
    read (fun t => (t.PC, t.SP, t.faulted, t.slots)) (one 0x00EE (start [])) =
      some (0x0200, 0, some .stackUnderflow, 0) ∧
    faultOf (step { start [] with faulted := some .stackUnderflow }) = some .stackUnderflow := by decide

/-- V12, V13: the same registers under COSMAC and not (W9) -/
theorem test_jpV0 : read (·.PC) (one 0xB2FF { start [(0, 0xFF), (2, 0x01)] with compatMode := 1 }) = some 0x03FE ∧
    read (·.PC) (one 0xB2FF (start [(0, 0xFF), (2, 0x01)])) = some 0x0300 := by decide

/-- V14: not reduced mod 4096 -/
theorem test_jpV0_above_memory : read (·.PC) (one 0xBFFF (start [(15, 0xFF)])) = some 0x10FE := by decide

/-- V15, V16, V25: the skip from the last word does not wrap -/
theorem test_seImm : read (·.PC) (one 0x3A05 (start [(10, 5)])) = some 0x0204 ∧
    read (·.PC) (one 0x3A05 (start [(10, 6)])) = some 0x0202 ∧
    read (·.PC) (one 0x3A00 { start [] with PC := 0x0FFE }) = some 0x1002 := by decide

/-- V17, V18 -/
theorem test_sneImm : read (·.PC) (one 0x4A05 (start [(10, 6)])) = some 0x0204 ∧
    read (·.PC) (one 0x4A05 (start [(10, 5)])) = some 0x0202 := by decide

/-- V20, V21: the low nibble is not decoded -/
theorem test_seReg : read (·.PC) (one 0x5120 (start [(1, 7), (2, 8)])) = some 0x0202 ∧
    read (·.PC) (one 0x512F (start [(1, 7), (2, 7)])) = some 0x0204 := by decide

/-- V22, V24 -/
theorem test_sneReg : read (·.PC) (one 0x9120 (start [(1, 7), (2, 8)])) = some 0x0204 ∧
    read (·.PC) (one 0x9110 (start [(1, 7)])) = some 0x0202 := by decide

/-- V26: PC 4095 reports `pc_oor`, nothing else changes -/
theorem test_fetch_out_of_range : read (fun t => (t.PC, t.pcOor, t.slots, t.running))
    (step { ready with PC := 0x0FFF }) = some (0x0FFF, true, 0, true) := by decide

/-- V27: an odd PC executes normally -/
theorem test_fetch_odd : read (fun t => (t.PC, t.reg 10)) (one 0x6A2F { start [] with PC := 0x0201 }) =
    some (0x0203, 0x2F) := by decide

/-! ## Load, arithmetic, logic, shift, random -/

/-- V30 -/
theorem test_ldImm : read (fun t => (t.PC, t.reg 10)) (one 0x6A2F (start [])) = some (0x0202, 0x2F) := by decide

/-- V31, V32 -/
theorem test_addImm :
    read (fun t => (t.reg 10, t.reg 15)) (one 0x7AFF (start [(10, 2), (15, 7)])) = some (1, 7) ∧
      read (fun t => t.reg 15) (one 0x7F01 (start [(15, 0xFF)])) = some 0 := by decide

/-- V33 -/
theorem test_ldReg : read (fun t => t.reg 1) (one 0x8120 (start [(2, 0x33)])) = some 0x33 := by decide

/-- V34, V41 -/
theorem test_orReg :
    read (fun t => (t.reg 1, t.reg 15)) (one 0x8121 (start [(1, 0x0C), (2, 0x0A), (15, 1)])) = some (0x0E, 1) ∧
      read (fun t => t.reg 15) (one 0x8F21 { start [(15, 0x0C), (2, 0x0A)] with compatMode := 1 }) = some 0 := by decide

/-- V36, V37 -/
theorem test_andReg :
    read (fun t => (t.reg 1, t.reg 15)) (one 0x8122 (start [(1, 0x0C), (2, 0x0A), (15, 1)])) = some (0x08, 1) ∧
      read (fun t => (t.reg 1, t.reg 15)) (one 0x8122 { start [(1, 0x0C), (2, 0x0A), (15, 1)] with compatMode := 1 }) =
        some (0x08, 0) := by decide

/-- V38, V42: the old VF is an operand -/
theorem test_xorReg :
    read (fun t => (t.reg 1, t.reg 15)) (one 0x8123 (start [(1, 0x0C), (2, 0x0A), (15, 1)])) = some (0x06, 1) ∧
      read (fun t => (t.reg 1, t.reg 15)) (one 0x81F3 { start [(1, 0x0C), (15, 0x0A)] with compatMode := 1 }) =
        some (0x06, 0) := by decide

/-- W1, V43 -/
theorem test_addReg_carry :
    read (fun t => (t.reg 0, t.reg 15)) (one 0x8014 (start [(0, 0xFF), (1, 1)])) = some (0, 1) ∧
      read (fun t => (t.reg 0, t.reg 15)) (one 0x8014 (start [(0, 0xFE), (1, 1)])) = some (0xFF, 0) := by decide

/-- V47, V48: the flag is written last; the old VF is an operand -/
theorem test_addReg_flag_register :
    read (fun t => t.reg 15) (one 0x8F14 (start [(15, 3), (1, 2)])) = some 0 ∧
      read (fun t => (t.reg 1, t.reg 15)) (one 0x81F4 (start [(1, 0x10), (15, 1)])) = some (0x11, 0) := by decide

/-- W2, W3, V49 -/
theorem test_subReg :
    read (fun t => (t.reg 1, t.reg 15)) (one 0x8125 (start [(1, 5), (2, 3)])) = some (2, 1) ∧
      read (fun t => (t.reg 1, t.reg 15)) (one 0x8125 (start [(1, 3), (2, 5)])) = some (0xFE, 0) ∧
      read (fun t => (t.reg 1, t.reg 15)) (one 0x8125 (start [(1, 5), (2, 5)])) = some (0, 1) := by decide

/-- V50: the difference is overwritten by the flag -/
theorem test_subReg_flag_register :
    read (fun t => t.reg 15) (one 0x8F25 (start [(15, 3), (2, 5)])) = some 0 := by decide

/-- V52, V53, V54 -/
theorem test_subnReg :
    read (fun t => (t.reg 1, t.reg 15)) (one 0x8127 (start [(1, 3), (2, 5)])) = some (2, 1) ∧
      read (fun t => (t.reg 1, t.reg 15)) (one 0x8127 (start [(1, 5), (2, 3)])) = some (0xFE, 0) ∧
      read (fun t => (t.reg 1, t.reg 15)) (one 0x8127 (start [(1, 5), (2, 5)])) = some (0, 1) := by decide

/-- V56, V57 -/
theorem test_shrReg :
    read (fun t => (t.reg 1, t.reg 15)) (one 0x8126 (start [(1, 5), (2, 0x80)])) = some (2, 1) ∧
      read (fun t => (t.reg 1, t.reg 15, t.reg 2)) (one 0x8126 { start [(1, 5), (2, 0x80)] with compatMode := 1 }) =
        some (0x40, 0, 0x80) := by decide

/-- V61: under COSMAC with x = 15 -/
theorem test_shrReg_flag_register :
    read (fun t => t.reg 15) (one 0x8F26 { start [(15, 3), (2, 6)] with compatMode := 1 }) = some 0 := by decide

/-- V58, V59 -/
theorem test_shlReg :
    read (fun t => (t.reg 1, t.reg 15)) (one 0x812E (start [(1, 0x81), (2, 0x40)])) = some (2, 1) ∧
      read (fun t => (t.reg 1, t.reg 15)) (one 0x812E { start [(1, 0x81), (2, 0x40)] with compatMode := 1 }) =
        some (0x80, 0) := by decide

/-- V63: the source is the old VF -/
theorem test_shlReg_from_flag_register :
    read (fun t => (t.reg 1, t.reg 15)) (one 0x81FE { start [(1, 1), (15, 0x80)] with compatMode := 1 }) =
      some (0, 1) := by decide

/-- V64, V66, with the random byte given -/
theorem test_rnd : (rndWith 0xA7 3 0x0F (start [])).reg 3 = 0x07 ∧ (rndWith 0x5A 3 0xFF (start [])).reg 3 = 0x5A ∧
    read (fun t => (t.PC, t.randCount)) (one 0xC30F (start [])) = some (0x0202, 1) := by decide

/-! ## Index register and memory -/

/-- V70 -/
theorem test_ldI : read (fun t => t.I) (one 0xAFFF (start [])) = some 0x0FFF := by decide

/-- V72, V74 under AMIGA -/
theorem test_addI_amiga :
    read (fun t => (t.I, t.reg 15)) (one 0xF11E { start [(1, 5)] with I := 0x0FFE, compatMode := 4 }) =
        some (0x1003, 1) ∧
      read (fun t => (t.I, t.reg 15)) (one 0xF11E { start [(1, 1)] with I := 0x0FFE, compatMode := 4 }) =
        some (0x0FFF, 0) := by decide

/-- V71, V76 -/
theorem test_addI :
    read (fun t => (t.I, t.reg 15)) (one 0xF11E { start [(1, 5)] with I := 0x0FFE }) = some (0x1003, 0) ∧
      read (fun t => (t.I, t.reg 15)) (one 0xF11E { start [(1, 1)] with I := 0xFFFF, compatMode := 4 }) =
        some (0, 0) := by decide

/-- V79, V79a -/
theorem test_ldF : read (fun t => t.I) (one 0xF329 (start [(3, 0x1A)])) = some 0x0032 ∧
    read (fun t => t.I) (one 0xF329 (start [(3, 0xFF)])) = some 0x004B := by decide

/-- V79b -/
theorem test_ldB : read (fun t => (t.memRead 0x300, t.memRead 0x301, t.memRead 0x302, t.I))
    (one 0xF233 { start [(2, 0x9C)] with I := 0x0300 }) = some (1, 5, 6, 0x0300) := by decide

/-- V79e: `I` above 0xFFF is reduced per access -/
theorem test_ldB_wraps : read (fun t => (t.memRead 0xFFF, t.memRead 0, t.memRead 1))
    (one 0xF233 { start [(2, 0x78)] with I := 0x1FFF }) = some (1, 2, 0) := by decide

/-- V79f, V79g -/
theorem test_ldMemVx :
    read (fun t => (t.memRead 0x400, t.memRead 0x402, t.memRead 0x403, t.I))
        (one 0xF255 { start [(0, 0x11), (1, 0x22), (2, 0x33), (3, 0x44)] with I := 0x0400 }) =
        some (0x11, 0x33, 0, 0x0400) ∧
      read (fun t => (t.memRead 0x401, t.I))
        (one 0xF255 { start [(0, 0x11), (1, 0x22), (2, 0x33), (3, 0x44)] with I := 0x0400, compatMode := 1 }) =
        some (0x22, 0x0403) := by decide

/-- V79i: the index is not reduced mod 4096 -/
theorem test_ldMemVx_wraps : read (fun t => (t.memRead 0xFFF, t.memRead 0, t.I))
    (one 0xF155 { start [(0, 0x11), (1, 0x22)] with I := 0x0FFF, compatMode := 1 }) = some (0x11, 0x22, 0x1001) := by
  decide

/-- V79k -/
theorem test_ldVxMem : read (fun t => (t.reg 0, t.reg 1, t.reg 2, t.I))
    (one 0xF165 { (start [(2, 9)]).memWriteList 0x400 [0xAA, 0xBB, 0xCC] with I := 0x0400 }) =
      some (0xAA, 0xBB, 9, 0x0400) := by decide

/-- V79m -/
theorem test_ldVxMem_cosmac : read (fun t => (t.reg 0, t.I))
    (one 0xF065 { (start []).memWrite 0x400 0xAA with I := 0x0400, compatMode := 1 }) = some (0xAA, 0x0401) := by decide

/-! ## Keypad and timers -/

/-- V85, V86, V87 -/
theorem test_skp :
    read (·.PC) (one 0xE19E { start [(1, 0x17)] with keys := State.reset.keys.set 7 true }) = some 0x0204 ∧
      read (·.PC) (one 0xE19E (start [(1, 7)])) = some 0x0202 := by decide

/-- V88, V89 -/
theorem test_sknp :
    read (·.PC) (one 0xE1A1 (start [(1, 7)])) = some 0x0204 ∧
      read (·.PC) (one 0xE1A1 { start [(1, 7)] with keys := State.reset.keys.set 7 true }) = some 0x0202 := by decide

/-- V80, V81 -/
theorem test_ldVxK_press : read (fun t => (t.PC, t.kwPhase)) (one 0xF30A (start [])) = some (0x0200, .waitPress) ∧
    read (fun t => (t.PC, t.kwPhase, t.kwKey, t.keyJustPressed))
      (one 0xF30A { start [] with keyJustPressed := true, lastKey := 5 }) = some (0x0200, .waitRelease, 5, true) := by decide

/-- V82, V84: the latched key, not the later one -/
theorem test_ldVxK_release :
    read (fun t => (t.PC, t.kwPhase))
        (one 0xF30A { start [] with kwPhase := .waitRelease, kwKey := 5, keys := State.reset.keys.set 5 true }) =
        some (0x0200, .waitRelease) ∧
      read (fun t => (t.PC, t.reg 3, t.kwPhase))
        (one 0xF30A { start [] with
          kwPhase := .waitRelease, kwKey := 5, lastKey := 6, keyJustPressed := true,
          keys := State.reset.keys.set 6 true }) =
        some (0x0202, 5, .waitPress) := by decide

/-- V89a -/
theorem test_ldVxDt : read (fun t => t.reg 4) (one 0xF407 { start [] with DT := 0x2A }) = some 0x2A := by decide

/-- V89b -/
theorem test_ldDtVx : read (fun t => t.DT) (one 0xF415 (start [(4, 0x3C)])) = some 0x3C := by decide

/-- V89c, V89d -/
theorem test_ldStVx :
    read (fun t => (t.ST, t.soundSignal)) (one 0xF418 { start [(4, 2)] with soundSignal := .cont }) = some (2, .play) ∧
      read (fun t => (t.ST, t.soundSignal)) (one 0xF418 { start [(4, 0)] with ST := 9, soundSignal := .cont }) =
        some (0, .cont) := by decide

/-- K1, K3: release keeps the edge and the last key -/
theorem test_setKey : (fun t : State => (t.key 7, t.keyJustPressed, t.lastKey)) (setKey 7 true (start [])) = (true, true, 7) ∧
    (fun t : State => (t.key 7, t.keyJustPressed, t.lastKey)) (setKey 7 false (setKey 7 true (start []))) =
      (false, true, 7) := by decide

/-! ## Display -/

/-- V99c: VF is untouched -/
theorem test_cls : read (fun t => (t.cell 0 0, t.cell 31 63, t.reg 15, t.redrawFlag))
    (one 0x00E0 (withCell 31 63 (withCell 0 0 (start [(15, 1)])))) = some (false, false, 1, true) := by decide

/-- V92: the origin is taken mod 64 and mod 32 -/
theorem test_drw_origin : read (fun t => (rowCells t 1, t.reg 15, t.redrawFlag))
    (one 0xD121 { (start [(1, 70), (2, 33)]).memWrite 0x300 0xFF with I := 0x0300 }) =
      some ([6, 7, 8, 9, 10, 11, 12, 13], 0, true) := by decide

/-- V99b: clipped bits do not reach the next row; the collision is counted -/
theorem test_drw_clips : read (fun t => (rowCells t 0, rowCells t 1, t.reg 15))
    (one 0xD121 (withCell 1 0 (withCell 0 63 { (start [(1, 62)]).memWrite 0x300 0xF0 with I := 0x0300 }))) =
      some ([62], [0], 1) := by decide

/-! ## Events -/

/-- S1: the timers first, stop exactly when `ST` reaches 0 -/
theorem test_tick_begins : read (fun t => (t.DT, t.ST, t.soundSignal, t.slots))
    (step { State.reset with running := true, DT := 1, ST := 1, events := [.tick] }) = some (0, 0, .stop, 15) := by decide

/-- S4: a paused tick -/
theorem test_paused_tick : read (fun t => (t.DT, t.soundSignal, t.renderReq, t.redrawFlag, t.keyJustPressed))
    (step { State.reset with DT := 0x3C, redrawFlag := true, keyJustPressed := true, events := [.tick] }) =
      some (0x3C, .stop, true, true, true) := by decide

/-- E2: what a load keeps -/
theorem test_loadProgram : read (fun t => (t.memRead 0x200, t.memRead 0x201, t.PC, t.running, t.reg 3, t.I))
    (step { start [(3, 0x77)] with I := 0x0123, PC := 0x0ABC, events := [.loadProgram [0x12, 0x00]] }) =
      some (0x12, 0x00, 0x0200, true, 0x77, 0x0123) := by decide

/-- E1 -/
theorem test_initialize_font : (State.reset.memRead 50, State.reset.memRead 54, State.reset.memRead 80) =
    ((0xF0, 0x90, 0x00) : Byte × Byte × Byte) := by decide

/-- The constraints of R5 and decision D4 on the parameters -/
theorem test_parameters_legal : Config.font.length = 80 ∧ Config.fontBase + 80 ≤ 0x200 ∧ 0 < Config.ipt := by decide

/-! ## The assembler's text -/

/-- `30_encoding.md` R103, R104 -/
theorem test_asm : Assembly.asm (.ldB 10) = "LD B, VA" ∧ Assembly.asm (.drw 0 1 5) = "DRW V0, V1, 0x5" ∧
    Assembly.asm (.nop8 1 2 8) = ".word 0x8128 ; NOP" ∧ Assembly.rom [.instr (.jp 0x208), .byte 0xFF] = [0x12, 0x08, 0xFF] := by
  decide

/-- The program P1 with labels, and an unknown encoding written as data -/
theorem test_assemble :
    Assembly.assemble ["LD V0, 0x00", "LD V1, 5 ; decimal", "CALL sum", "JP 0x208", "end: JP end", "sum:", "ADD V0, V1",
      "ADD V1, 0xFF", "SE V1, 0x00", "JP sum", "RET"] =
        some ([0x60, 0x00, 0x61, 0x05, 0x22, 0x0A, 0x12, 0x08, 0x12, 0x08] ++
          [0x80, 0x14, 0x71, 0xFF, 0x31, 0x00, 0x12, 0x0A, 0x00, 0xEE]) ∧
      Assembly.assemble [".word 0x8128 ; NOP", ".byte 0xFF"] = some [0x81, 0x28, 0xFF] ∧
      Assembly.assemble ["LD V0, 256"] = none := by
  decide

/-! ## Witnesses: the hypotheses of every statement can be met -/

/-- A state from which CALL goes to 0xABC and RET comes back. -/
def called : State := { State.reset with PC := 0x0ABC, SP := 1, stack := State.reset.stack.set 0 0x0202 }

theorem witness_DecodeOfEncodeIsTheInstruction :
    (Instr.drw 15 15 15).wf = true ∧ (Instr.nop8 0 0 0xF).wf = true ∧ (Instr.nop0 0xFFF).wf = true ∧
      (Instr.nopF 15 0x66).wf = true ∧ encode (.jp 0xFFF) = encode (.jp 0xFFF) := by decide

theorem witness_FetchIsBigEndianUpTo4094 :
    ({ State.reset with PC := 0x0FFE } : State).PC.toNat ≤ 4094 ∧
      4094 < ({ State.reset with PC := 0x0FFF } : State).PC.toNat := by decide

theorem witness_StepRunsTheDecodedInstruction :
    (∃ s', ready.atSlot 14 ∧ ready.PC.toNat ≤ 4094 ∧ ready.memRead ready.PC.toNat = 0x00 ∧
      ready.memRead (ready.PC.toNat + 1) = 0x00 ∧ decodeBytes [0x00, 0x00] = .ok (.nop0 0x000, []) ∧
      exec (.nop0 0x000) ready = .next s') ∧
    ({ ready with slots := 1, PC := 0x0FFE } : State).atSlot 0 :=
  ⟨⟨_, ⟨rfl, rfl⟩, by decide, by decide, by decide, rfl, rfl⟩, rfl, rfl⟩

theorem witness_PlacedWordIsFetchedNext :
    0xFFFF < 65536 ∧ ({ State.reset with PC := 0x0FFE } : State).PC.toNat ≤ 4094 := by decide

theorem witness_OutOfRangeFetchClosesTheTick :
    ({ ready with PC := 0x0FFF } : State).atSlot 14 ∧ 4094 < ({ ready with PC := 0x0FFF } : State).PC.toNat :=
  ⟨⟨rfl, rfl⟩, by decide⟩

theorem witness_StackFaultIsRecordedForGood :
    (ready.memWriteList 0x200 [0x00, 0xEE]).atSlot 14 ∧
      (ready.memWriteList 0x200 [0x00, 0xEE]).fetch16 = some 0x00EE ∧
      exec (decode 0x00EE) (ready.memWriteList 0x200 [0x00, 0xEE]) = .fault .stackUnderflow ∧
      ({ ready with faulted := some .stackOverflow } : State).faulted = some .stackOverflow :=
  ⟨⟨rfl, rfl⟩, by decide, rfl, rfl⟩

theorem witness_NopOnlyAdvances :
    (Instr.nop0 0x123).isNop = true ∧ (Instr.nop8 1 2 8).isNop = true ∧ (Instr.nopE 1 0).isNop = true ∧
      (Instr.nopF 1 0xFF).isNop = true := by decide

theorem witness_NopOnlyAdvances_in_a_tick :
    ready.atSlot 14 ∧ ready.fetch16 = some 0x0000 ∧ decode 0x0000 = .nop0 0x000 :=
  ⟨⟨rfl, rfl⟩, by decide, rfl⟩

theorem witness_ReturnPopsTheStack :
    called.SP.val = (0 : Fin 16).val + 1 ∧ ({ called with SP := 16 } : State).SP.val = (15 : Fin 16).val + 1 ∧
      State.reset.SP.val = 0 := by decide

theorem witness_JumpsSetThePC :
    (0 : Reg).val = (0x0FF : Addr12).toNat / 256 ∧ (15 : Reg).val = (0xFFF : Addr12).toNat / 256 := by decide

theorem witness_CallPushesTheReturnAddress :
    State.reset.SP.val = (0 : Fin 16).val ∧ ({ called with SP := 15 } : State).SP.val = (15 : Fin 16).val ∧
      ({ called with SP := 16 } : State).SP.val = 16 := by decide

theorem witness_ReturnComesBackAfterTheCall :
    ∃ t, exec (.call 0xABC) State.reset = .next t ∧ (∀ k, (t.setReg 3 7).slot k = t.slot k) ∧
      (t.setReg 3 7).SP = t.SP := ⟨_, rfl, fun _ => rfl, rfl⟩

theorem witness_LogicClearsTheFlagUnderCosmac :
    ((Instr.orReg 15 2 = .orReg 15 2 ∧ or = or) ∧ (Instr.andReg 1 15 = .andReg 1 15 ∧ and = and)) ∧
      Instr.xorReg 3 3 = .xorReg 3 3 ∧ xor = xor := ⟨⟨⟨rfl, rfl⟩, rfl, rfl⟩, rfl, rfl⟩

theorem witness_ShiftsMoveTheSourceByOne :
    (3 : Byte) = (if (start [(1, 3), (2, 8)]).compatMode.getLsbD 0 then (start [(1, 3), (2, 8)]).reg 2
      else (start [(1, 3), (2, 8)]).reg 1) ∧
    (8 : Byte) = (if ({ start [(1, 3), (2, 8)] with compatMode := 1 } : State).compatMode.getLsbD 0 then
      ({ start [(1, 3), (2, 8)] with compatMode := 1 } : State).reg 2
      else ({ start [(1, 3), (2, 8)] with compatMode := 1 } : State).reg 1) := by decide

theorem witness_RandomByteIsMasked : (0x0F : Byte).getLsbD 4 = false ∧ (15 : Reg) ≠ 3 := by decide

theorem witness_BcdStoresThreeDigits :
    (∀ k < 3, 0x302 % 4096 ≠ ({ start [] with I := 0x0FFF } : State).indexAddr k % 4096) ∧
      ∀ k < 3, 2 % 4096 ≠ ({ start [] with I := 0x0FFF } : State).indexAddr k % 4096 := by decide

theorem witness_BlockStoreWritesTheRegisters :
    (15 : Reg) ≤ 15 ∧ (∀ k : Reg, k ≤ 15 → 0x510 % 4096 ≠ ({ start [] with I := 0x0500 } : State).indexAddr k.val % 4096) ∧
      ∀ k : Reg, k ≤ 0 → 0x501 % 4096 ≠ ({ start [] with I := 0x0500 } : State).indexAddr k.val % 4096 := by decide

theorem witness_BlockLoadUndoesBlockStore :
    ∃ t, exec (.ldMemVx 15) { State.reset with I := 0x0FF8 } = .next t ∧
      (∀ a, ({ t with I := 0x0FF8, V := State.reset.V.set 3 9 } : State).memRead a = t.memRead a) ∧
      ({ t with I := 0x0FF8, V := State.reset.V.set 3 9 } : State).I = 0x0FF8 := ⟨_, rfl, fun _ => rfl, rfl⟩

theorem witness_StoredInstructionIsFetchedNext :
    ∃ t, 1 ≤ (1 : Reg).val ∧ ({ State.reset with PC := 0x0FFC, I := 0x1FFE } : State).PC.toNat ≤ 4092 ∧
      ({ State.reset with PC := 0x0FFC, I := 0x1FFE } : State).I.toNat % 4096 =
        ({ State.reset with PC := 0x0FFC, I := 0x1FFE } : State).PC.toNat + 2 ∧
      exec (.ldMemVx 1) { State.reset with PC := 0x0FFC, I := 0x1FFE } = .next t :=
  ⟨_, by decide, by decide, by decide, rfl⟩

theorem witness_KeySkipsReadTheLevel :
    (7 : Fin 16).val = ((start [(1, 0x17)]).reg 1).toNat % 16 ∧
      (15 : Fin 16).val = ((start [(1, 0xFF)]).reg 1).toNat % 16 := by decide

theorem witness_KeyWaitFollowsItsTable :
    (State.reset.kwPhase = .waitPress ∧ State.reset.keyJustPressed = false) ∧
      (({ State.reset with keyJustPressed := true } : State).kwPhase = .waitPress ∧
        ({ State.reset with keyJustPressed := true } : State).keyJustPressed = true) ∧
      (({ State.reset with kwPhase := .waitRelease, kwKey := 15, keys := State.reset.keys.set 15 true } : State).kwPhase =
          .waitRelease ∧
        ({ State.reset with kwPhase := .waitRelease, kwKey := 15, keys := State.reset.keys.set 15 true } : State).key 15 =
          true) ∧
      ({ State.reset with kwPhase := .waitRelease } : State).kwPhase = .waitRelease ∧
      ({ State.reset with kwPhase := .waitRelease } : State).key 0 = false := by decide

theorem witness_KeyWaitWithoutAnEdgeRepeats :
    (ready.memWriteList 0x200 [0xF3, 0x0A]).running = true ∧
      (ready.memWriteList 0x200 [0xF3, 0x0A]).fetch16.map decode = some (.ldVxK 3) ∧
      (ready.memWriteList 0x200 [0xF3, 0x0A]).kwPhase = .waitPress ∧
      (ready.memWriteList 0x200 [0xF3, 0x0A]).keyJustPressed = false := by decide

theorem witness_SetKeyTracksTheEdge :
    ({ State.reset with events := [.setKey 15 true, .tick] } : State).atEvent (.setKey 15 true) [.tick] :=
  ⟨rfl, rfl, rfl⟩

/-- One state for each of the two ends of an edge: the last slot of a tick, and Initialize -/
theorem witness_KeyEdgeLastsToTheEndOfTheTick :
    (∃ t, step { ready with slots := 1, keyJustPressed := true } = .next t ∧ t.keyJustPressed = false) ∧
      ∃ t, step { State.reset with keyJustPressed := true, events := [.init] } = .next t ∧ t.keyJustPressed = false :=
  ⟨⟨_, rfl, rfl⟩, _, rfl, rfl⟩

/-- A set cell under a set bit of glyph 0, and an empty display: both collision clauses -/
theorem witness_DrawTogglesTheTargetedCells :
    (∃ r c, (withCell 0 0 State.reset).targeted 1 2 5 r c ∧ (withCell 0 0 State.reset).cell r c = true) ∧
      ¬ ∃ r c, State.reset.targeted 1 2 5 r c ∧ State.reset.cell r c = true :=
  ⟨⟨0, 0, ⟨0, 0, by decide, by decide, by decide, by decide, by decide⟩, by decide⟩,
    fun ⟨r, c, _, h⟩ => absurd h (by simp [State.cell, State.reset])⟩

theorem witness_DrawingTwiceRestoresTheDisplay :
    ∃ t, exec (.drw 1 2 5) State.reset = .next t ∧ (t.reg 1).toNat % 64 = (State.reset.reg 1).toNat % 64 ∧
      (t.reg 2).toNat % 32 = (State.reset.reg 2).toNat % 32 := ⟨_, rfl, by decide, by decide⟩

theorem witness_RunningTickBeginsWithTheTimers :
    ({ State.reset with running := true, ST := 1, events := [.tick] } : State).atEvent .tick [] ∧
      ({ State.reset with running := true, ST := 1, events := [.tick] } : State).running = true :=
  ⟨⟨rfl, rfl, rfl⟩, rfl⟩

theorem witness_PausedTickOnlySignals :
    ({ State.reset with events := [.tick] } : State).atEvent .tick [] ∧
      ({ State.reset with events := [.tick] } : State).running = false := ⟨⟨rfl, rfl, rfl⟩, rfl⟩

theorem witness_StepsOfATickMakeTheWholeTick :
    ({ State.reset with running := true, events := [.tick, .tick] } : State).atEvent .tick [.tick] := ⟨rfl, rfl, rfl⟩

theorem witness_OutOfRangeTickOnlyRunsTheTimers :
    ({ ready with PC := 0x0FFF } : State).running = true ∧ 4094 < ({ ready with PC := 0x0FFF } : State).PC.toNat := by
  decide

theorem witness_RunAndModeEventsSetOneField :
    ({ State.reset with events := [.setRunning true] } : State).atEvent (.setRunning true) [] ∧
      ({ State.reset with events := [.setMode 7] } : State).atEvent (.setMode 7) [] :=
  ⟨⟨rfl, rfl, rfl⟩, rfl, rfl, rfl⟩

/-- No byte, and exactly 3584 -/
theorem witness_LoadProgramCopiesAndRestarts :
    (({ State.reset with events := [.loadProgram []] } : State).atEvent (.loadProgram []) [] ∧ ([] : List Byte).length ≤ 3584) ∧
      ({ State.reset with events := [.loadProgram (List.replicate 3584 0xAA)] } : State).atEvent
        (.loadProgram (List.replicate 3584 0xAA)) [] ∧ (List.replicate 3584 (0xAA : Byte)).length ≤ 3584 :=
  ⟨⟨⟨rfl, rfl, rfl⟩, by decide⟩, ⟨rfl, rfl, rfl⟩, Nat.le_of_eq List.length_replicate⟩

theorem witness_OversizedLoadChangesNothing :
    ({ State.reset with events := [.loadProgram (List.replicate 3585 0xAA)] } : State).atEvent
      (.loadProgram (List.replicate 3585 0xAA)) [] ∧ 3584 < (List.replicate 3585 (0xAA : Byte)).length :=
  ⟨⟨rfl, rfl, rfl⟩, by rw [List.length_replicate]; decide⟩

/-- E4: one byte too many, whatever the bytes -/
theorem test_loadProgram_records_the_length (bytes : List Byte) (h : bytes.length = 3585) :
    read (fun t => (t.loadErr, t.loadLength, t.PC, t.running))
      (step { State.reset with events := [.loadProgram bytes] }) = some (true, some 3585, 0x0200, false) := by
  change some _ = _
  simp only [betweenTicks, applyEvent]
  rw [loadEvent_eq, if_pos (by omega), h]
  rfl

theorem witness_FailedLoadRecordsItsLength :
    ({ State.reset with events := [.loadProgram (List.replicate 3585 0xAA)] } : State).atEvent
      (.loadProgram (List.replicate 3585 0xAA)) [] ∧
    ∃ t, step { State.reset with loadLength := some 4000, events := [.loadProgram []] } = .next t ∧
      t.loadLength ≠ ({ State.reset with loadLength := some 4000, events := [.loadProgram []] } : State).loadLength :=
  ⟨⟨rfl, rfl, rfl⟩, _, rfl, by decide⟩

theorem witness_InitializeResetsTheWholeState :
    ({ ready with slots := 0, DT := 9, events := [.init] } : State).atEvent .init [] := ⟨rfl, rfl, rfl⟩

/-- The two ends of the memory that is no font -/
theorem witness_ResetValues :
    (80 < 4096 ∧ Config.fontBase + 80 ≤ 80) ∧ 4095 < 4096 ∧ Config.fontBase + 80 ≤ 4095 := by decide

theorem witness_NoInstructionTouchesTheHostsState : ∃ t, exec (.ldVxMem 15) ready = .next t := ⟨_, rfl⟩

/-- An instruction for each clause -/
theorem witness_EachSpaceHasItsOwnWriters :
    ∃ t u, exec .cls ready = .next t ∧ exec (.ldB 3) ready = .next u ∧
      (∀ x, Instr.cls ≠ .ldB x ∧ Instr.cls ≠ .ldMemVx x) ∧ Instr.ldB 3 ≠ .cls ∧ (∀ x y n, Instr.ldB 3 ≠ .drw x y n) ∧
      (∀ nnn, Instr.cls ≠ .call nnn) ∧ Instr.cls ≠ .ret ∧ (∀ nnn, Instr.cls ≠ .ldI nnn) ∧
      (∀ x, Instr.cls ≠ .addI x ∧ Instr.cls ≠ .ldF x ∧ Instr.cls ≠ .ldVxMem x ∧ Instr.cls ≠ .ldDtVx x ∧
        Instr.cls ≠ .ldStVx x ∧ Instr.cls ≠ .ldVxK x) :=
  ⟨_, _, rfl, rfl, by simp, by simp, by simp, by simp, by simp, by simp, by simp⟩

theorem witness_FlagHasOnlyTheListedWriters :
    ∃ t, exec (.addReg 0 1) (start [(0, 0xFF), (1, 1)]) = .next t ∧ t.reg 15 ≠ (start [(0, 0xFF), (1, 1)]).reg 15 :=
  ⟨_, rfl, by decide⟩

theorem witness_HostEventsLeaveTheRegistersAlone :
    (∃ t, ({ State.reset with events := [.setKey 3 true] } : State).atEvent (.setKey 3 true) [] ∧
      HostEvent.setKey 3 true ≠ .init ∧ step { State.reset with events := [.setKey 3 true] } = .next t) ∧
    (HostEvent.setKey 3 true ≠ .tick ∧ ∀ bytes, HostEvent.setKey 3 true ≠ .loadProgram bytes) :=
  ⟨⟨_, ⟨rfl, rfl, rfl⟩, by decide, rfl⟩, by decide, by simp⟩

/-- An instruction outside the nine, and one inside them with two modes that agree on the bits read -/
theorem witness_ModeMattersToNineInstructionsOnly :
    ((∀ nnn, Instr.cls ≠ .jpV0 nnn) ∧ (∀ x y, Instr.cls ≠ .orReg x y ∧ Instr.cls ≠ .andReg x y ∧ Instr.cls ≠ .xorReg x y ∧
        Instr.cls ≠ .shrReg x y ∧ Instr.cls ≠ .shlReg x y) ∧
        ∀ x, Instr.cls ≠ .addI x ∧ Instr.cls ≠ .ldMemVx x ∧ Instr.cls ≠ .ldVxMem x) ∧
      (2 : BitVec 3).getLsbD 0 = State.reset.compatMode.getLsbD 0 ∧
      (2 : BitVec 3).getLsbD 2 = State.reset.compatMode.getLsbD 2 :=
  ⟨⟨by simp, by simp, by simp⟩, by decide, by decide⟩

/-- P1's spin, `1208` at 0x208 -/
theorem witness_SelfJumpIsStable :
    (({ ready with PC := 0x0208 } : State).memWriteList 0x208 [0x12, 0x08]).atSelfJump :=
  ⟨0x208, by decide, by decide⟩

theorem witness_EveryStepKeepsTheInvariant :
    ready.Inv ∧ ∃ t, step ready = .next t :=
  ⟨⟨rfl, by decide, by decide, by decide, by decide, rfl, .inl rfl⟩, _, rfl⟩

end Sys2Proof.Tests
end

section
/-! PROOFS. What NOP, JP and JP V0 do (`40_fetch_control_flow.md` R123, R125, R128), over rules for the outcome, the
frame of `PC` and a slot that completes. -/

namespace Sys2Proof.Machine

/-! ## Outcomes and frames -/

@[simp] theorem yields_next {t : State} {P : State → Prop} : Yields (.next t) P ↔ P t :=
  ⟨fun ⟨_, h, hP⟩ => by cases h; exact hP, fun hP => ⟨t, rfl, hP⟩⟩

@[simp] theorem unchanged_setPC (s : State) (v : Word) : Unchanged [.PC] s (s.setPC v) := by
  intro p hp
  cases p with
  | PC => simp at hp
  | _ => simp [Part.same]

/-! ## A slot that completes -/

@[simp] theorem withSlots_PC (n : Nat) (s : State) : (withSlots n s).PC = s.PC := by
  cases n <;> rfl

/-- A step inside a tick whose fetched instruction completes: its state, with the slot counted (R120, R253). -/
theorem step_of_atSlot {s t : State} {left : Nat} {w : Word} (hslot : s.atSlot left) (hfetch : s.fetch16 = some w)
    (hexec : exec (decode w) s = .next t) : step s = .next (withSlots left t) := by
  obtain ⟨hfault, hslots⟩ := hslot
  have hone : executeOne s = .next t := by simp only [executeOne, hfetch, hexec]
  simp only [step, hfault, hslots, runSlot, hone]

/-! ## NOP -/

theorem exec_of_isNop {i : Instr} (h : i.isNop = true) (s : State) : exec i s = .next s.advance := by
  cases i with
  | nop0 | nop8 | nopE | nopF => rfl
  | _ => cases h

/-! ## Jump targets -/

theorem exec_jp (nnn : Addr12) (s : State) : exec (.jp nnn) s = .next (s.setPC (zext16 nnn)) := rfl

theorem exec_jpV0 (nnn : Addr12) (s : State) :
    exec (.jpV0 nnn) s = .next (s.setPC (zext16 nnn + zextByte (s.jumpOffset nnn))) := rfl

@[simp] theorem zext16_toNat (nnn : Addr12) : (zext16 nnn).toNat = nnn.toNat :=
  BitVec.toNat_setWidth_of_le (by decide)

@[simp] theorem zextByte_toNat (b : Byte) : (zextByte b).toNat = b.toNat :=
  BitVec.toNat_setWidth_of_le (by decide)

theorem offsetField_val (nnn : Addr12) : (offsetField nnn).val = nnn.toNat / 256 := by
  have := nnn.isLt
  simp only [offsetField, BitVec.val_toFin, BitVec.extractLsb'_toNat, Nat.shiftRight_eq_div_pow]
  omega

/-- A 12-bit address plus a byte stays within 16 bits, so the sum of BNNN is never reduced (R128). -/
theorem zext16_add_zextByte_toNat (nnn : Addr12) (b : Byte) : (zext16 nnn + zextByte b).toNat = nnn.toNat + b.toNat := by
  have hn := nnn.isLt
  have hb := b.isLt
  rw [BitVec.toNat_add, zext16_toNat, zextByte_toNat, Nat.mod_eq_of_lt (by omega)]

/-- The offset register of BNNN by its number, the high nibble of the immediate (R9, R128). -/
theorem State.jumpOffset_eq (s : State) {nnn : Addr12} {x : Reg} (hx : x.val = nnn.toNat / 256) :
    s.jumpOffset nnn = if s.compatMode.getLsbD 0 then s.reg 0 else s.reg x := by
  have hfield : offsetField nnn = x := Fin.ext ((offsetField_val nnn).trans hx.symm)
  rw [State.jumpOffset, State.cosmac, hfield]

/-! ## The obligations -/

/-- Settles O10: a NOP row's meaning is `advance`, and the slot that runs it closes with that state. -/
theorem nopOnlyAdvances : Obligations.NopOnlyAdvances := by
  intro i s hnop
  have hexec := exec_of_isNop hnop s
  constructor
  · rw [hexec, State.advance_eq, yields_next]
    exact ⟨BitVec.toNat_add _ _, unchanged_setPC s _⟩
  · rintro left w hslot hfetch rfl
    rw [step_of_atSlot hslot hfetch hexec, yields_next]
    simp

/-- Settles O12: both instructions only set `PC`, and the target of BNNN does not overflow. -/
theorem jumpsSetThePC : Obligations.JumpsSetThePC := by
  intro nnn s
  constructor
  · rw [exec_jp, yields_next]
    exact ⟨zext16_toNat nnn, unchanged_setPC s _⟩
  · rw [exec_jpV0, yields_next]
    refine ⟨fun x hx => ?_, unchanged_setPC s _⟩
    rw [State.setPC_PC, zext16_add_zextByte_toNat, State.jumpOffset_eq s hx]

end Sys2Proof.Machine
end

section
/-! PROOFS. What the loads of a register, the register move and the add of an immediate do
(`41_load_alu.md` R150, R151, R152), over rules for frames: one write of a register, and one frame after another. -/

namespace Sys2Proof.Machine

/-! ## Frames -/

theorem Part.same_trans {p : Part} {s t u : State} (hst : p.same s t) (htu : p.same t u) : p.same s u := by
  cases p with
  | V | stack | mem | keys => exact fun k => (htu k).trans (hst k)
  | disp => exact fun y x => (htu y x).trans (hst y x)
  | _ => exact Eq.trans htu hst

/-- Two updates in a row change at most what each of them may change. -/
theorem Unchanged.trans {ps qs : List Part} {s t u : State} (hst : Unchanged ps s t) (htu : Unchanged qs t u) :
    Unchanged (ps ++ qs) s u := by
  intro p hp
  obtain ⟨hps, hqs⟩ := not_or.mp (mt List.mem_append.mpr hp)
  exact Part.same_trans (hst p hps) (htu p hqs)

theorem Unchanged.mono {ps qs : List Part} {s t : State} (h : Unchanged ps s t) (hsub : ps ⊆ qs) :
    Unchanged qs s t :=
  fun p hp => h p fun hmem => hp (hsub hmem)

@[simp] theorem unchanged_setReg (s : State) (x : Reg) (v : Byte) : Unchanged [.V] s (s.setReg x v) := by
  intro p hp
  cases p with
  | V => simp at hp
  | _ => simp [Part.same]

/-! ## One register written, then the advance -/

theorem unchanged_setReg_advance (s : State) (x : Reg) (v : Byte) :
    Unchanged [.PC, .V] s (s.setReg x v).advance :=
  ((unchanged_setReg s x v).trans (unchanged_setPC _ _)).mono (by simp)

theorem setReg_advance_PC (s : State) (x : Reg) (v : Byte) : (s.setReg x v).advance.PC = s.PC + 2 := rfl

theorem setReg_advance_reg (s : State) (x : Reg) (v : Byte) (r : Reg) :
    (s.setReg x v).advance.reg r = if r = x then v else s.reg r := by
  rw [State.advance_eq, State.setPC_reg, State.reg_setReg]

/-! ## The instructions -/

theorem exec_ldImm (x : Reg) (nn : Byte) (s : State) : exec (.ldImm x nn) s = .next (s.setReg x nn).advance := rfl

theorem exec_addImm (x : Reg) (nn : Byte) (s : State) :
    exec (.addImm x nn) s = .next (s.setReg x (s.reg x + nn)).advance := rfl

theorem exec_ldReg (x y : Reg) (s : State) : exec (.ldReg x y) s = .next (s.setReg x (s.reg y)).advance := rfl

/-- Settles O16: each of the three writes one register and advances; a byte's sum is already mod 256. -/
theorem loadsMovesAndImmediateAdd : Obligations.LoadsMovesAndImmediateAdd := by
  intro x y nn s
  refine ⟨?ldImm, ?addImm, ?ldReg⟩
  case ldImm =>
    rw [exec_ldImm, yields_next]
    exact ⟨setReg_advance_PC s x _, setReg_advance_reg s x _, unchanged_setReg_advance s x _⟩
  case addImm =>
    rw [exec_addImm, yields_next]
    refine ⟨setReg_advance_PC s x _, fun r => ?_, unchanged_setReg_advance s x _⟩
    rw [setReg_advance_reg, apply_ite BitVec.toNat, BitVec.toNat_add]
  case ldReg =>
    rw [exec_ldReg, yields_next]
    exact ⟨setReg_advance_PC s x _, setReg_advance_reg s x _, unchanged_setReg_advance s x _⟩

end Sys2Proof.Machine
end

section
/-! PROOFS. What the index loads and the block transfers do (`42_index_memory.md` R180, R182, R184, R185), over rules
for the frames of `I`, of memory and of the registers, the glyph address and the index after a block. -/

namespace Sys2Proof.Machine

/-! ## Frames -/

@[simp] theorem unchanged_setI (s : State) (v : Word) : Unchanged [.I] s (s.setI v) := by
  intro p hp
  cases p with
  | I => simp at hp
  | _ => simp [Part.same]

@[simp] theorem unchanged_memWriteList (s : State) (a : Nat) (vs : List Byte) :
    Unchanged [.mem] s (s.memWriteList a vs) := by
  intro p hp
  rw [State.memWriteList_eq]
  cases p with
  | mem => simp at hp
  | V | stack | keys => exact fun _ => rfl
  | disp => exact fun _ _ => rfl
  | _ => rfl

@[simp] theorem unchanged_loadRegs (s : State) (x : Reg) : Unchanged [.V] s (s.loadRegs x) := by
  intro p hp
  cases p with
  | V => simp at hp
  | _ => simp [Part.same]

/-- An update that may change `ps`, then `I` written, then the advance: the shape of every instruction here. -/
theorem Unchanged.setI_advance {ps : List Part} {s t : State} (h : Unchanged ps s t) (v : Word) :
    Unchanged (.PC :: (ps ++ [.I])) s (t.setI v).advance :=
  ((h.trans (unchanged_setI t v)).trans (unchanged_setPC _ _)).mono (by simp)

theorem unchanged_setI_advance (s : State) (v : Word) : Unchanged [.PC, .I] s (s.setI v).advance :=
  ((unchanged_setI s v).trans (unchanged_setPC _ _)).mono (by simp)

/-! ## Addresses -/

/-- A hex digit is the value mod 16 (R182). -/
@[simp] theorem lowNibble_val (b : Byte) : (lowNibble b).val = b.toNat % 16 := by
  simp [lowNibble]

/-- Every glyph lies below 65536, so its address is not reduced (R31, R182). -/
theorem glyphAddr_toNat (d : Fin 16) : (glyphAddr d).toNat = Config.fontBase + 5 * d.val := by
  have hd := d.isLt
  have hbase : Config.fontBase + 5 * 16 ≤ 65536 := by decide
  rw [glyphAddr, Config.glyphBytes, BitVec.toNat_ofNat, Nat.mod_eq_of_lt (by omega)]

/-- The index after a block transfer as a number, over the bit of the mode that stands for COSMAC (R9, R184, R185). -/
theorem State.blockIndex_toNat (s : State) (x : Reg) :
    (s.blockIndex x).toNat = (if s.compatMode.getLsbD 0 then s.I.toNat + x.val + 1 else s.I.toNat) % 65536 := by
  have hI := s.I.isLt
  rw [State.blockIndex, State.cosmac]
  split
  · rw [BitVec.toNat_add, BitVec.toNat_ofNat]
    omega
  · exact (Nat.mod_eq_of_lt hI).symm

/-- The address of an access through `I` is taken mod 4096 once (R64, R186). -/
@[simp] theorem State.memRead_mod (s : State) (a : Nat) : s.memRead (a % 4096) = s.memRead a := by
  simp [State.memRead, Config.memSize]

/-! ## The bytes of a block store -/

/-- The memory after the store of a block, register by register (R184). -/
theorem State.memRead_blockStore (s : State) {x k : Reg} (hk : k ≤ x) :
    (s.memWriteList (s.indexAddr 0) (s.regsUpTo x)).memRead (s.indexAddr k.val) = s.reg k := by
  have hx := x.isLt
  have hlen : (s.regsUpTo x).length ≤ Config.memSize := by rw [State.length_regsUpTo, Config.memSize]; omega
  have hk' : k.val < (s.regsUpTo x).length := by rw [State.length_regsUpTo]; exact Nat.lt_succ_of_le hk
  exact (State.memRead_memWriteList s _ _ hlen _ hk').trans (State.getElem_regsUpTo s x _ hk')

/-- A byte that no register of the block lands on reads as before (R184). -/
theorem State.memRead_blockStore_outside (s : State) (x : Reg) (a : Nat)
    (h : ∀ k : Reg, k ≤ x → a % 4096 ≠ s.indexAddr k.val % 4096) :
    (s.memWriteList (s.indexAddr 0) (s.regsUpTo x)).memRead a = s.memRead a := by
  refine State.memRead_memWriteList_outside s _ _ a fun k hk => ?_
  rw [State.length_regsUpTo] at hk
  exact h ⟨k, by omega⟩ (Nat.le_of_lt_succ hk)

/-! ## The instructions -/

theorem exec_ldI (nnn : Addr12) (s : State) : exec (.ldI nnn) s = .next (s.setI (zext16 nnn)).advance := rfl

theorem exec_ldF (x : Reg) (s : State) :
    exec (.ldF x) s = .next (s.setI (glyphAddr (lowNibble (s.reg x)))).advance := rfl

theorem exec_ldMemVx (x : Reg) (s : State) :
    exec (.ldMemVx x) s =
      .next ((s.memWriteList (s.indexAddr 0) (s.regsUpTo x)).setI (s.blockIndex x)).advance := rfl

theorem exec_ldVxMem (x : Reg) (s : State) :
    exec (.ldVxMem x) s = .next ((s.loadRegs x).setI (s.blockIndex x)).advance := rfl

/-- Settles O25: the bytes of the block read back as the registers, the store touches no other byte, and the index is
that of a block transfer. -/
theorem blockStoreWritesTheRegisters : Obligations.BlockStoreWritesTheRegisters := by
  intro x s
  have hstore := unchanged_memWriteList s (s.indexAddr 0) (s.regsUpTo x)
  rw [exec_ldMemVx, yields_next]
  refine ⟨?pc, ?stored, ?others, ?index, hstore.setI_advance _⟩
  case pc => exact congrArg (· + 2) (hstore .PC (by decide))
  case stored => exact fun k hk => s.memRead_blockStore hk
  case others => exact fun a ha => s.memRead_blockStore_outside x a ha
  case index => exact s.blockIndex_toNat x

/-- Settles O22: both write `I` and advance; the immediate is below 4096 and the glyph's address is not reduced. -/
theorem indexLoads : Obligations.IndexLoads := by
  intro nnn x s
  constructor
  · rw [exec_ldI, yields_next]
    exact ⟨rfl, zext16_toNat nnn, unchanged_setI_advance s _⟩
  · rw [exec_ldF, yields_next]
    refine ⟨rfl, ?_, unchanged_setI_advance s _⟩
    rw [State.advance_eq, State.setPC_I, State.setI_I, glyphAddr_toNat, lowNibble_val]

/-- Settles O26: the registers up to `x` come from memory, and the index is that of a block transfer. -/
theorem blockLoadReadsTheRegisters : Obligations.BlockLoadReadsTheRegisters := by
  intro x s
  rw [exec_ldVxMem, yields_next]
  refine ⟨rfl, fun r => ?_, s.blockIndex_toNat x, (unchanged_loadRegs s x).setI_advance _⟩
  rw [State.memRead_mod]
  exact s.reg_loadRegs x r

end Sys2Proof.Machine
end

section
/-! PROOFS. What the event SetKey does (`43_keypad_timers.md` R200), over a rule for the step that takes a host event
and the frames of the event list and of the edge tracker. -/

namespace Sys2Proof.Machine

/-! ## A step between ticks -/

/-- A step that takes a host event: the event leaves the list and takes effect (R261). -/
theorem step_of_atEvent {s : State} {e : HostEvent} {rest : List HostEvent} (h : s.atEvent e rest) :
    step s = .next (applyEvent e { s with events := rest }) := by
  obtain ⟨hfault, hslots, hevents⟩ := h
  simp only [step, betweenTicks, hfault, hslots, hevents]

/-! ## Frames -/

theorem unchanged_events (s : State) (rest : List HostEvent) :
    Unchanged [.events] s { s with events := rest } := by
  intro p hp
  cases p with
  | events => simp at hp
  | V | stack | mem | keys => exact fun _ => rfl
  | disp => exact fun _ _ => rfl
  | _ => rfl

theorem unchanged_setKey (k : Fin 16) (pressed : Bool) (s : State) :
    Unchanged [.keys, .lastKey, .keyJustPressed] s (setKey k pressed s) := by
  intro p hp
  rw [setKey_eq]
  cases p with
  | keys | lastKey | keyJustPressed => simp at hp
  | V | stack | mem => exact fun _ => rfl
  | disp => exact fun _ _ => rfl
  | _ => rfl

/-! ## The edge -/

theorem setKey_lastKey (k : Fin 16) (pressed : Bool) (s : State) :
    (setKey k pressed s).lastKey = if s.key k = false ∧ pressed = true then k else s.lastKey := by
  simp only [setKey_eq, and_comm]

theorem setKey_keyJustPressed (k : Fin 16) (pressed : Bool) (s : State) :
    (setKey k pressed s).keyJustPressed = if s.key k = false ∧ pressed = true then true else s.keyJustPressed := by
  simp only [setKey_eq, and_comm]

/-- Settles O32: the step is the edge tracker run on the state without the event, which holds the same keys and edge. -/
theorem setKeyTracksTheEdge : Obligations.SetKeyTracksTheEdge := by
  intro k pressed rest s hat
  rw [step_of_atEvent hat, yields_next]
  refine ⟨?events, State.key_setKey k pressed _, setKey_lastKey k pressed _, setKey_keyJustPressed k pressed _,
    (unchanged_events s rest).trans (unchanged_setKey k pressed _)⟩
  case events => exact unchanged_setKey k pressed _ .events (by decide)

end Sys2Proof.Machine
end

section
/-! PROOFS. What DRW does (`44_display_sprite.md` R231 to R236): the cells the collider toggles are the targeted ones,
over a rule for the sprite's bytes and the frames of the display and of the flag. -/

namespace Sys2Proof.Machine

/-! ## Frames -/

@[simp] theorem unchanged_setDisp (s : State) (d : Display) : Unchanged [.disp, .redrawFlag] s (s.setDisp d) := by
  intro p hp
  cases p with
  | disp | redrawFlag => simp at hp
  | _ => simp [Part.same]

/-- The display written, then one register, then the advance: the shape of DRW. -/
theorem unchanged_setDisp_setReg_advance (s : State) (d : Display) (x : Reg) (v : Byte) :
    Unchanged [.PC, .disp, .V, .redrawFlag] s ((s.setDisp d).setReg x v).advance :=
  ((unchanged_setDisp s d).trans (unchanged_setReg_advance _ x v)).mono (by simp)

/-! ## The sprite lands on the targeted cells -/

@[simp] theorem State.length_sprite (s : State) (n : Nibble) : (s.sprite n).length = n.toNat := by
  simp [State.sprite]

/-- Sprite row `row` is the byte `row` places after `I` (R233). -/
theorem State.sprite_getD (s : State) (n : Nibble) {row : Nat} (hrow : row < n.toNat) :
    (s.sprite n).getD row 0 = s.memRead (s.I.toNat + row) := by
  simp [State.sprite, State.indexAddr, hrow]

/-- A sprite byte that stands at column `tx` hits column `c` with its bit `7 - bit`, where `c` is `tx + bit` (R233). -/
theorem bitsHit_spriteBits (b : Byte) (tx c : Nat) :
    bitsHit (spriteBits b) tx c = true ↔ ∃ bit < 8, c = tx + bit ∧ b.getLsbD (7 - bit) = true := by
  simp only [bitsHit, spriteBits_getD, Bool.and_eq_true, decide_eq_true_eq]
  constructor
  · rintro ⟨hle, hlt, hbit⟩
    exact ⟨c - tx, hlt, (Nat.add_sub_cancel' hle).symm, hbit⟩
  · rintro ⟨bit, hlt, rfl, hbit⟩
    rw [Nat.add_sub_cancel_left]
    exact ⟨Nat.le_add_right tx bit, hlt, hbit⟩

/-- What the collider hits is what the sprite at `I` targets (R231, R232, R233). -/
theorem State.rowsHit_sprite (s : State) (x y : Reg) (n : Nibble) (r : Fin 32) (c : Fin 64) :
    rowsHit (s.sprite n) (s.originX x) (s.originY y) r c = true ↔ s.targeted x y n r c := by
  simp only [rowsHit, State.length_sprite, Bool.and_eq_true, decide_eq_true_eq, bitsHit_spriteBits]
  constructor
  · rintro ⟨⟨hle, hrow⟩, bit, hlt, hc, hbit⟩
    rw [s.sprite_getD n hrow] at hbit
    exact ⟨r.val - s.originY y, bit, hrow, hlt, (Nat.add_sub_cancel' hle).symm, hc, hbit⟩
  · rintro ⟨row, bit, hrow, hlt, hr, hc, hbit⟩
    have hsub : r.val - s.originY y = row := by rw [hr, State.originY, Nat.add_sub_cancel_left]
    rw [hsub, s.sprite_getD n hrow]
    exact ⟨⟨hr ▸ Nat.le_add_right _ row, hrow⟩, bit, hlt, hc, hbit⟩

/-- Drawing changes a cell exactly when the sprite targets it (R231). -/
theorem State.drawSprite_cell_ne (s : State) (x y : Reg) (n : Nibble) (r : Fin 32) (c : Fin 64) :
    (s.drawSprite x y n).1[r.val][c.val] ≠ s.cell r c ↔ s.targeted x y n r c := by
  rw [State.drawSprite, drawRows_cell, ← s.rowsHit_sprite x y n r c, State.cell]
  generalize s.disp[r.val][c.val] = old
  cases old <;> simp

/-- The collision flag after drawing: a targeted cell was set before (R235). -/
theorem State.drawSprite_collision (s : State) (x y : Reg) (n : Nibble) :
    (s.drawSprite x y n).2 = true ↔ ∃ r c, s.targeted x y n r c ∧ s.cell r c = true := by
  simp only [State.drawSprite, drawRows_hit, State.rowsHit_sprite, State.cell, Bool.false_eq_true, false_or]

/-! ## The instruction -/

theorem exec_drw (x y : Reg) (n : Nibble) (s : State) :
    exec (.drw x y n) s =
      .next ((s.setDisp (s.drawSprite x y n).1).setReg flagReg (flagByte (s.drawSprite x y n).2)).advance := rfl

/-- Settles O37: the display is the collider's, which changes exactly the targeted cells, and the flag register holds
its collision flag. -/
theorem drawTogglesTheTargetedCells : Obligations.DrawTogglesTheTargetedCells := by
  intro x y n s
  have hreg := setReg_advance_reg (s.setDisp (s.drawSprite x y n).1) flagReg (flagByte (s.drawSprite x y n).2)
  have hflag := (hreg flagReg).trans (if_pos rfl)
  rw [exec_drw, yields_next]
  refine ⟨rfl, rfl, s.drawSprite_cell_ne x y n, fun hhit => ?set, fun hmiss => ?clear, fun q hq => ?others,
    unchanged_setDisp_setReg_advance s _ _ _⟩
  case set =>
    rw [← s.drawSprite_collision] at hhit
    exact hflag.trans (congrArg flagByte hhit)
  case clear =>
    rw [← s.drawSprite_collision, Bool.not_eq_true] at hmiss
    exact hflag.trans (congrArg flagByte hmiss)
  case others => exact (hreg q).trans (if_neg hq)

end Sys2Proof.Machine
end

section
/-! PROOFS. How a running tick begins (`45_frame_sequencer.md` R251 phases 1 to 5, R252, R253), over the frames of the
timer phases and of the slot count. -/

namespace Sys2Proof.Machine

/-! ## Frames -/

theorem unchanged_timerPhases (s : State) :
    Unchanged [.redrawFlag, .soundSignal, .DT, .ST, .pcOor] s (timerPhases s) := by
  intro p hp
  cases p with
  | redrawFlag | soundSignal | DT | ST | pcOor => simp at hp
  | _ => simp [Part.same]

theorem unchanged_slots (s : State) (n : Nat) : Unchanged [.slots] s { s with slots := n } := by
  intro p hp
  cases p with
  | slots => simp at hp
  | V | stack | mem | keys => exact fun _ => rfl
  | disp => exact fun _ _ => rfl
  | _ => rfl

/-! ## The opening step -/

/-- The quota is not 0, so a tick does not close in the step that opens it (R5, R253). -/
theorem beginTick_eq (s : State) : beginTick s = { timerPhases s with slots := 15 } := by
  rw [beginTick, withSlots_eq, if_neg (by decide), Config.ipt]

theorem applyEvent_tick_of_running {s : State} (hrun : s.running = true) : applyEvent .tick s = beginTick s :=
  if_pos hrun

/-- The state the opening step reaches (R251, R261; log 12). -/
theorem step_of_runningTick {s : State} {rest : List HostEvent} (hat : s.atEvent .tick rest)
    (hrun : s.running = true) : step s = .next { timerPhases { s with events := rest } with slots := 15 } := by
  have hopen : applyEvent .tick { s with events := rest } = beginTick { s with events := rest } :=
    applyEvent_tick_of_running hrun
  rw [step_of_atEvent hat, hopen, beginTick_eq]

/-- The signal by the value of `ST` as a number (R252). -/
theorem timerPhases_soundSignal_eq (s : State) :
    (timerPhases s).soundSignal = if s.ST.toNat = 1 then .stop else .cont := by
  have hone : s.ST = 1 ↔ s.ST.toNat = 1 := BitVec.toNat_inj.symm
  simp only [timerPhases_soundSignal, hone]

/-- Settles O40: the step takes the event off the list, runs the timer phases and opens the slots, and the frames of
the three compose. -/
theorem runningTickBeginsWithTheTimers : Obligations.RunningTickBeginsWithTheTimers := by
  intro rest s hat hrun
  rw [step_of_runningTick hat hrun, yields_next]
  refine ⟨rfl, rfl, rfl, rfl, decTimer_toNat s.DT, decTimer_toNat s.ST,
    timerPhases_soundSignal_eq { s with events := rest }, ?frame⟩
  case frame =>
    have hframe := ((unchanged_events s rest).trans (unchanged_timerPhases _)).trans (unchanged_slots _ 15)
    exact hframe.mono (by decide)

end Sys2Proof.Machine
end

section
/-! PROOFS. When the event LoadProgram fails and what a failed load changes (`60_exceptions.md` R280, R282;
`70_reset_and_hazards.md` R322, R323), over the law `loadEvent_eq` of the event. -/

namespace Sys2Proof.Machine

/-! ## The outcome of the load -/

theorem loadProgram_eq_romTooLarge_iff (bytes : List Byte) (s : State) :
    loadProgram bytes s = .fault (.romTooLarge bytes.length) ↔ 3584 < bytes.length := by
  have hmax : Config.romMax = 3584 := rfl
  rw [loadProgram, hmax]
  split
  case isTrue hlong => exact iff_of_true rfl hlong
  case isFalse hfits => exact iff_of_false (fun h => by cases h) hfits

/-! ## What the event leaves -/

@[simp] theorem loadEvent_events (bytes : List Byte) (s : State) : (loadEvent bytes s).events = s.events := by
  rw [loadEvent_eq]
  split <;> rfl

theorem loadEvent_loadErr (bytes : List Byte) (s : State) :
    (loadEvent bytes s).loadErr = decide (3584 < bytes.length) := by
  rw [loadEvent_eq]
  split
  case isTrue hlong => exact (decide_eq_true hlong).symm
  case isFalse hfits => exact (decide_eq_false hfits).symm

theorem loadEvent_loadLength (bytes : List Byte) (s : State) :
    (loadEvent bytes s).loadLength = if 3584 < bytes.length then some bytes.length else none := by
  rw [loadEvent_eq]
  split <;> rfl

/-- A failed load leaves memory, `PC`, the display and `running` as they were (R282, R323). -/
theorem unchanged_loadEvent_of_oversized {bytes : List Byte} (hlong : 3584 < bytes.length) (s : State) :
    Unchanged [.loadErr, .loadLength] s (loadEvent bytes s) := by
  intro p hp
  rw [loadEvent_eq, if_pos hlong]
  cases p with
  | loadErr | loadLength => simp at hp
  | V | stack | mem | keys => exact fun _ => rfl
  | disp => exact fun _ _ => rfl
  | _ => rfl

/-- Settles O46: the step is the load event on the state without the event, and above the limit that event only reports
and records. -/
theorem oversizedLoadChangesNothing : Obligations.OversizedLoadChangesNothing := by
  intro bytes rest s hat
  have hstep : step s = .next (loadEvent bytes { s with events := rest }) := step_of_atEvent hat
  rw [hstep, yields_next]
  refine ⟨loadProgram_eq_romTooLarge_iff bytes s, loadEvent_events bytes _, ?err, fun hlong => ⟨?length, ?frame⟩⟩
  case err => rw [loadEvent_loadErr, decide_eq_true_iff]
  case length => rw [loadEvent_loadLength, if_pos hlong]
  case frame => exact (unchanged_events s rest).trans (unchanged_loadEvent_of_oversized hlong _)

end Sys2Proof.Machine
end

section
/-! PROOFS. Decoder and encoder (`30_encoding.md` R90 to R100): the fields of a word pack to it again, each family's
decoder answers a well-formed instruction of the word it read, and the NOP rows are what the families leave over. -/

namespace Sys2Proof

/-! ## A word from its own fields -/

theorem packNnn_fieldNnn {w : Word} {fam : Nat} (h : w.toNat / 4096 = fam) : packNnn fam (fieldNnn w) = w := by
  have hw := w.isLt
  refine BitVec.eq_of_toNat_eq ?_
  rw [packNnn_toNat (by omega), fieldNnn_toNat]
  omega

theorem packXNn_fields {w : Word} {fam : Nat} (h : w.toNat / 4096 = fam) :
    packXNn fam (fieldX w) (fieldNn w) = w := by
  have hw := w.isLt
  refine BitVec.eq_of_toNat_eq ?_
  rw [packXNn_toNat (by omega), fieldX_val, fieldNn_toNat]
  omega

theorem packXYN_fields {w : Word} {fam : Nat} (h : w.toNat / 4096 = fam) :
    packXYN fam (fieldX w) (fieldY w) (fieldN w) = w := by
  have hw := w.isLt
  refine BitVec.eq_of_toNat_eq ?_
  rw [packXYN_toNat (by omega), fieldX_val, fieldY_val, fieldN_toNat]
  omega

/-- The low nibble is cleared in families 5 and 9 and no other word changes (R95). -/
theorem canonicalWord_toNat (w : Word) :
    (canonicalWord w).toNat =
      if w.toNat / 4096 = 5 ∨ w.toNat / 4096 = 9 then w.toNat / 16 * 16 else w.toNat := by
  have hw := w.isLt
  have hfive : fieldFam w = 5 ↔ w.toNat / 4096 = 5 := by rw [← fieldFam_toNat]; exact BitVec.toNat_inj.symm
  have hnine : fieldFam w = 9 ↔ w.toNat / 4096 = 9 := by rw [← fieldFam_toNat]; exact BitVec.toNat_inj.symm
  simp only [canonicalWord, hfive, hnine]
  split_ifs
  · rw [BitVec.toNat_ofNat]; omega
  · rfl

theorem packXYN_zero {w : Word} {fam : Nat} (h : w.toNat / 4096 = fam) (h59 : fam = 5 ∨ fam = 9) :
    packXYN fam (fieldX w) (fieldY w) 0 = canonicalWord w := by
  have hw := w.isLt
  have hzero : (0 : Nibble).toNat = 0 := rfl
  refine BitVec.eq_of_toNat_eq ?_
  rw [canonicalWord_toNat, h, if_pos h59, packXYN_toNat (by omega), fieldX_val, fieldY_val, hzero]
  omega

theorem canonicalWord_eq {w : Word} (h5 : w.toNat / 4096 ≠ 5) (h9 : w.toNat / 4096 ≠ 9) : canonicalWord w = w := by
  refine BitVec.eq_of_toNat_eq ?_
  rw [canonicalWord_toNat, if_neg (not_or.mpr ⟨h5, h9⟩)]

/-! ## The families that dispatch further -/

/-- The decoder of family 0 answers a well-formed instruction, and it is the one of the word it read (R94, R100). -/
theorem decodeFamily0_meaning {w : Word} (h : w.toNat / 4096 = 0x0) :
    (decodeFamily0 w).wf = true ∧ encode (decodeFamily0 w) = w := by
  have hpack := packNnn_fieldNnn h
  unfold decodeFamily0
  split_ifs with hcls hret
  case pos => exact ⟨rfl, hcls.symm⟩
  case pos => exact ⟨rfl, hret.symm⟩
  case neg =>
    refine ⟨?_, hpack⟩
    have hne (c : Addr12) (hc : w ≠ packNnn 0 c) : fieldNnn w ≠ c := fun heq => hc (heq ▸ hpack.symm)
    simpa [Instr.wf, family0Defined] using And.intro (hne 0x0E0 hcls) (hne 0x0EE hret)

theorem decodeFamily8_meaning {w : Word} (h : w.toNat / 4096 = 0x8) :
    (decodeFamily8 w).wf = true ∧ encode (decodeFamily8 w) = w := by
  have hpack := packXYN_fields h
  unfold decodeFamily8
  split_ifs <;> simp_all [Instr.wf, family8Defined, encode]

theorem decodeFamilyE_meaning {w : Word} (h : w.toNat / 4096 = 0xE) :
    (decodeFamilyE w).wf = true ∧ encode (decodeFamilyE w) = w := by
  have hpack := packXNn_fields h
  unfold decodeFamilyE
  split_ifs <;> simp_all [Instr.wf, familyEDefined, encode]

theorem decodeFamilyF_meaning {w : Word} (h : w.toNat / 4096 = 0xF) :
    (decodeFamilyF w).wf = true ∧ encode (decodeFamilyF w) = w := by
  have hpack := packXNn_fields h
  unfold decodeFamilyF
  split_ifs <;> simp_all [Instr.wf, familyFDefined, encode]

theorem isNop_decodeFamily0 (w : Word) :
    (decodeFamily0 w).isNop = true ↔ w.toNat ≠ 0x00E0 ∧ w.toNat ≠ 0x00EE := by
  have hcls : w = 0x00E0 ↔ w.toNat = 0x00E0 := BitVec.toNat_inj.symm
  have hret : w = 0x00EE ↔ w.toNat = 0x00EE := BitVec.toNat_inj.symm
  unfold decodeFamily0
  split_ifs <;> simp_all [Instr.isNop]

/-- Family 8 answers a NOP where the low nibble is none of its defined ones (R94, R100). -/
theorem isNop_decodeFamily8 (w : Word) :
    (decodeFamily8 w).isNop = true ↔ w.toNat % 16 ∈ [8, 9, 0xA, 0xB, 0xC, 0xD, 0xF] := by
  have htable : ∀ n : Nibble, n ∉ family8Defined ↔ n.toNat ∈ [8, 9, 0xA, 0xB, 0xC, 0xD, 0xF] := by decide
  rw [← fieldN_toNat, ← htable]
  unfold decodeFamily8
  split_ifs <;> simp_all [Instr.isNop, family8Defined]

/-- A byte is one of a list's by its number. -/
theorem byte_mem_iff_toNat_mem (b : Byte) (bs : List Byte) : b ∈ bs ↔ b.toNat ∈ bs.map BitVec.toNat :=
  (List.mem_map_of_injective fun _ _ => BitVec.eq_of_toNat_eq).symm

theorem isNop_decodeFamilyE (w : Word) :
    (decodeFamilyE w).isNop = true ↔ w.toNat % 256 ∉ [0x9E, 0xA1] := by
  have htable := byte_mem_iff_toNat_mem (fieldNn w) familyEDefined
  rw [← fieldNn_toNat, ← show familyEDefined.map BitVec.toNat = [0x9E, 0xA1] from rfl, ← htable]
  unfold decodeFamilyE
  split_ifs <;> simp_all [Instr.isNop, familyEDefined]

theorem isNop_decodeFamilyF (w : Word) :
    (decodeFamilyF w).isNop = true ↔
      w.toNat % 256 ∉ [0x07, 0x0A, 0x15, 0x18, 0x1E, 0x29, 0x33, 0x55, 0x65] := by
  have htable := byte_mem_iff_toNat_mem (fieldNn w) familyFDefined
  rw [← fieldNn_toNat, ← show familyFDefined.map BitVec.toNat =
    [0x07, 0x0A, 0x15, 0x18, 0x1E, 0x29, 0x33, 0x55, 0x65] from rfl, ← htable]
  unfold decodeFamilyF
  split_ifs <;> simp_all [Instr.isNop, familyFDefined]

/-! ## The obligations -/

theorem decode_encode {i : Instr} (h : i.wf = true) : decode (encode i) = i := by
  cases i with
  | cls => exact Laws.RoundTrip.cls h
  | ret => exact Laws.RoundTrip.ret h
  | jp nnn => exact Laws.RoundTrip.jp nnn h
  | call nnn => exact Laws.RoundTrip.call nnn h
  | seImm x nn => exact Laws.RoundTrip.seImm x nn h
  | sneImm x nn => exact Laws.RoundTrip.sneImm x nn h
  | seReg x y => exact Laws.RoundTrip.seReg x y h
  | ldImm x nn => exact Laws.RoundTrip.ldImm x nn h
  | addImm x nn => exact Laws.RoundTrip.addImm x nn h
  | ldReg x y => exact Laws.RoundTrip.ldReg x y h
  | orReg x y => exact Laws.RoundTrip.orReg x y h
  | andReg x y => exact Laws.RoundTrip.andReg x y h
  | xorReg x y => exact Laws.RoundTrip.xorReg x y h
  | addReg x y => exact Laws.RoundTrip.addReg x y h
  | subReg x y => exact Laws.RoundTrip.subReg x y h
  | shrReg x y => exact Laws.RoundTrip.shrReg x y h
  | subnReg x y => exact Laws.RoundTrip.subnReg x y h
  | shlReg x y => exact Laws.RoundTrip.shlReg x y h
  | sneReg x y => exact Laws.RoundTrip.sneReg x y h
  | ldI nnn => exact Laws.RoundTrip.ldI nnn h
  | jpV0 nnn => exact Laws.RoundTrip.jpV0 nnn h
  | rnd x nn => exact Laws.RoundTrip.rnd x nn h
  | drw x y n => exact Laws.RoundTrip.drw x y n h
  | skp x => exact Laws.RoundTrip.skp x h
  | sknp x => exact Laws.RoundTrip.sknp x h
  | ldVxDt x => exact Laws.RoundTrip.ldVxDt x h
  | ldVxK x => exact Laws.RoundTrip.ldVxK x h
  | ldDtVx x => exact Laws.RoundTrip.ldDtVx x h
  | ldStVx x => exact Laws.RoundTrip.ldStVx x h
  | addI x => exact Laws.RoundTrip.addI x h
  | ldF x => exact Laws.RoundTrip.ldF x h
  | ldB x => exact Laws.RoundTrip.ldB x h
  | ldMemVx x => exact Laws.RoundTrip.ldMemVx x h
  | ldVxMem x => exact Laws.RoundTrip.ldVxMem x h
  | nop0 nnn => exact Laws.RoundTrip.nop0 nnn h
  | nop8 x y n => exact Laws.RoundTrip.nop8 x y n h
  | nopE x nn => exact Laws.RoundTrip.nopE x nn h
  | nopF x nn => exact Laws.RoundTrip.nopF x nn h

theorem decodeBytes_encodeBytes (i : Instr) (rest : List Byte) :
    decodeBytes (encodeBytes i ++ rest) = .ok (decode (encode i), rest) := by
  have hbytes : decodeBytes (encodeBytes i ++ rest) =
      .ok (decode (wordOfBytes (wordHi (encode i)) (wordLo (encode i))), rest) := rfl
  rw [hbytes, Machine.wordOfBytes_hi_lo]

/-- Settles O2: the round trip of every constructor, its word's bytes put together again, and so the decoder is a left
inverse of the encoder. -/
theorem decodeOfEncodeIsTheInstruction : Obligations.DecodeOfEncodeIsTheInstruction := by
  refine ⟨fun i hi => decode_encode hi, fun i rest hi => ?bytes, fun i j hi hj heq => ?injective⟩
  case bytes => rw [decodeBytes_encodeBytes, decode_encode hi]
  case injective => rw [← decode_encode hi, heq, decode_encode hj]

/-- What every word decodes to encodes to the word again, but for the bits the decoder does not read (R94, R95). -/
theorem decode_meaning (w : Word) : (decode w).wf = true ∧ encode (decode w) = canonicalWord w := by
  have hw := w.isLt
  have hfam := fieldFam_toNat w
  have hcanon := @canonicalWord_eq w
  have hnnn {fam : Nat} (h : w.toNat / 4096 = fam) := packNnn_fieldNnn h
  have hxnn {fam : Nat} (h : w.toNat / 4096 = fam) := packXNn_fields h
  have hxyn {fam : Nat} (h : w.toNat / 4096 = fam) := packXYN_fields h
  unfold decode
  split
  case h_6 h | h_10 h => exact ⟨rfl, packXYN_zero (by omega) (by omega)⟩
  case h_2 h | h_3 h | h_11 h | h_12 h => rw [hcanon (by omega) (by omega)]; exact ⟨rfl, hnnn (by omega)⟩
  case h_4 h | h_5 h | h_7 h | h_8 h | h_13 h => rw [hcanon (by omega) (by omega)]; exact ⟨rfl, hxnn (by omega)⟩
  case h_14 h => rw [hcanon (by omega) (by omega)]; exact ⟨rfl, hxyn (by omega)⟩
  case h_1 h => rw [hcanon (by omega) (by omega)]; exact decodeFamily0_meaning (by omega)
  case h_9 h => rw [hcanon (by omega) (by omega)]; exact decodeFamily8_meaning (by omega)
  case h_15 h => rw [hcanon (by omega) (by omega)]; exact decodeFamilyE_meaning (by omega)
  case h_16 =>
    have hF : w.toNat / 4096 = 0xF := by grind
    rw [hcanon (by omega) (by omega)]; exact decodeFamilyF_meaning hF

/-- Settles O3: what the word decodes to encodes to its canonical form. -/
theorem everyWordHasOneMeaning : Obligations.EveryWordHasOneMeaning := by
  intro w
  obtain ⟨hwf, hencode⟩ := decode_meaning w
  exact ⟨hwf, by rw [hencode, canonicalWord_toNat]⟩

/-- Settles O4: the four families with NOP rows by their own decoders; every other family decodes to a defined
instruction. -/
theorem nopSpaceIsTheTable : Obligations.NopSpaceIsTheTable := by
  intro w
  have hw := w.isLt
  have hfam := fieldFam_toNat w
  unfold decode
  split
  case h_1 h => simp only [isNop_decodeFamily0]; omega
  case h_9 h => simp only [isNop_decodeFamily8, List.mem_cons, List.not_mem_nil, or_false]; omega
  case h_15 h => simp only [isNop_decodeFamilyE, List.mem_cons, List.not_mem_nil, or_false]; omega
  case h_16 =>
    have hF : w.toNat / 4096 = 0xF := by grind
    simp only [isNop_decodeFamilyF, List.mem_cons, List.not_mem_nil, or_false]; omega
  all_goals exact iff_of_false (by simp [Instr.isNop]) (by omega)

/-- Settles O1: the decoder evaluated on each word of the list. -/
theorem wordsOfTheTableDecode : Obligations.WordsOfTheTableDecode := by
  unfold Obligations.WordsOfTheTableDecode
  decide

end Sys2Proof
end

section
/-! PROOFS. What the skips, RET and CALL do (`40_fetch_control_flow.md` R124, R126, R129 to R132), over rules for a
conditional skip and for the two ends of the stack (`10_state.md` R27). -/

namespace Sys2Proof.Machine

/-- What every answer satisfies, an answer that is known satisfies. -/
theorem Yields.of_eq_next {r : Result} {P : State → Prop} {t : State} (h : Yields r P) (hr : r = .next t) : P t :=
  yields_next.mp (hr ▸ h)

theorem Part.same_refl (p : Part) (s : State) : p.same s s := by
  cases p with
  | V | stack | mem | keys => exact fun _ => rfl
  | disp => exact fun _ _ => rfl
  | _ => rfl

/-! ## Skips -/

theorem unchanged_skipIf (s : State) (c : Bool) : Unchanged [.PC] s (s.skipIf c) := by
  rw [State.skipIf_eq]
  exact unchanged_setPC s _

theorem skipIf_PC_toNat (s : State) (c : Bool) :
    (s.skipIf c).PC.toNat = (s.PC.toNat + if c then 4 else 2) % 65536 := by
  cases c <;> exact BitVec.toNat_add _ _

/-- A skip on a condition, and the same when it is tested the other way round (R129 to R132). -/
theorem yields_skipIf (s : State) (p : Prop) [Decidable p] :
    Yields (.next (s.skipIf (decide p))) fun t =>
      t.PC.toNat = (s.PC.toNat + if p then 4 else 2) % 65536 ∧ Unchanged [.PC] s t := by
  rw [yields_next, skipIf_PC_toNat]
  exact ⟨by simp only [decide_eq_true_iff], unchanged_skipIf s _⟩

theorem yields_skipIf_not (s : State) (p : Prop) [Decidable p] :
    Yields (.next (s.skipIf (decide ¬p))) fun t =>
      t.PC.toNat = (s.PC.toNat + if p then 2 else 4) % 65536 ∧ Unchanged [.PC] s t := by
  have h := yields_skipIf s (¬p)
  simpa only [ite_not] using h

theorem exec_seImm (x : Reg) (nn : Byte) (s : State) :
    exec (.seImm x nn) s = .next (s.skipIf (decide (s.reg x = nn))) := rfl

theorem exec_sneImm (x : Reg) (nn : Byte) (s : State) :
    exec (.sneImm x nn) s = .next (s.skipIf (decide ¬s.reg x = nn)) := rfl

theorem exec_seReg (x y : Reg) (s : State) :
    exec (.seReg x y) s = .next (s.skipIf (decide (s.reg x = s.reg y))) := rfl

theorem exec_sneReg (x y : Reg) (s : State) :
    exec (.sneReg x y) s = .next (s.skipIf (decide ¬s.reg x = s.reg y)) := rfl

/-- Settles O15: all four are one conditional skip, two of them on the negated condition. -/
theorem skipsTestAndAdvance : Obligations.SkipsTestAndAdvance := by
  intro x y nn s
  rw [exec_seImm, exec_sneImm, exec_seReg, exec_sneReg]
  exact ⟨yields_skipIf s _, yields_skipIf_not s _, yields_skipIf s _, yields_skipIf_not s _⟩

/-! ## The stack -/

theorem State.SP_lt_or_full (s : State) : (∃ k : Fin 16, s.SP.val = k.val) ∨ s.SP.val = 16 := by
  by_cases h : s.SP.val < 16
  · exact .inl ⟨⟨s.SP.val, h⟩, rfl⟩
  · exact .inr (by omega)

theorem State.SP_succ_or_empty (s : State) : (∃ k : Fin 16, s.SP.val = k.val + 1) ∨ s.SP.val = 0 := by
  by_cases h : s.SP.val = 0
  · exact .inr h
  · exact .inl ⟨⟨s.SP.val - 1, by omega⟩, by simp only; omega⟩

/-- The state after a push into slot `k` (R27). -/
def State.pushed (s : State) (k : Fin 16) (v : Word) : State :=
  { s with stack := s.stack.set k.val v k.isLt, SP := k.succ }

/-- The state after a pop of slot `k` (R27). -/
def State.popped (s : State) (k : Fin 16) : State := { s with SP := k.castSucc }

theorem State.push_eq_pushed {s : State} {k : Fin 16} (h : s.SP.val = k.val) (v : Word) :
    s.push v = some (s.pushed k v) := by
  have hlt : s.SP.val < 16 := h ▸ k.isLt
  obtain rfl : k = ⟨s.SP.val, hlt⟩ := Fin.ext h.symm
  exact dif_pos hlt

theorem State.pop_eq_popped {s : State} {k : Fin 16} (h : s.SP.val = k.val + 1) :
    s.pop = some (s.slot k, s.popped k) := by
  have hlt : s.SP.val - 1 < 16 := by omega
  obtain rfl : k = ⟨s.SP.val - 1, hlt⟩ := Fin.ext (by simp only; omega)
  exact dif_pos (by omega)

theorem State.slot_pushed (s : State) (k : Fin 16) (v : Word) (q : Fin 16) :
    (s.pushed k v).slot q = if q = k then v else s.slot q := by
  simp only [State.slot, State.pushed, Vector.getElem_set, Fin.ext_iff, eq_comm]

theorem unchanged_pushed (s : State) (k : Fin 16) (v : Word) : Unchanged [.SP, .stack] s (s.pushed k v) := by
  intro p hp
  cases p with
  | SP | stack => simp at hp
  | V | mem | keys => exact fun _ => rfl
  | disp => exact fun _ _ => rfl
  | _ => rfl

theorem unchanged_popped (s : State) (k : Fin 16) : Unchanged [.SP] s (s.popped k) := by
  intro p hp
  cases p with
  | SP => simp at hp
  | V | stack | mem | keys => exact fun _ => rfl
  | disp => exact fun _ _ => rfl
  | _ => rfl

/-! ## RET and CALL -/

theorem exec_ret_of_SP {s : State} {k : Fin 16} (h : s.SP.val = k.val + 1) :
    exec .ret s = .next ((s.popped k).setPC (s.slot k)) := by
  simp only [exec, execRet, State.pop_eq_popped h]

theorem exec_ret_of_empty {s : State} (h : s.SP.val = 0) : exec .ret s = .fault .stackUnderflow := by
  simp only [exec, execRet, State.pop_eq_none.mpr h, raiseFault]

theorem exec_call_of_SP {s : State} {k : Fin 16} (h : s.SP.val = k.val) (nnn : Addr12) :
    exec (.call nnn) s = .next ((s.pushed k (s.PC + 2)).setPC (zext16 nnn)) := by
  simp only [exec, execCall, State.push_eq_pushed h]

theorem exec_call_of_full {s : State} (h : s.SP.val = 16) (nnn : Addr12) :
    exec (.call nnn) s = .fault .stackOverflow := by
  simp only [exec, execCall, State.push_eq_none.mpr h, raiseFault]

/-- Settles O11: a pop, then `PC` set; the pop fails on an empty stack only. -/
theorem returnPopsTheStack : Obligations.ReturnPopsTheStack := by
  intro s
  refine ⟨fun k hk => ?_, exec_ret_of_empty⟩
  rw [exec_ret_of_SP hk, yields_next]
  exact ⟨rfl, rfl, ((unchanged_popped s k).trans (unchanged_setPC _ _)).mono (by simp)⟩

/-- Settles O13: a push of `PC + 2`, then `PC` set; the push fails on a full stack only. -/
theorem callPushesTheReturnAddress : Obligations.CallPushesTheReturnAddress := by
  intro nnn s
  refine ⟨fun k hk => ?_, fun hfull => exec_call_of_full hfull nnn⟩
  rw [exec_call_of_SP hk, yields_next]
  refine ⟨zext16_toNat nnn, rfl, fun q => ?slots,
    ((unchanged_pushed s k _).trans (unchanged_setPC _ _)).mono (by simp)⟩
  case slots =>
    rw [State.setPC_slot, State.slot_pushed, apply_ite BitVec.toNat, BitVec.toNat_add]
    rfl

/-- Settles O14: the call completed, so it pushed into a slot, and the return pops that slot. -/
theorem returnComesBackAfterTheCall : Obligations.ReturnComesBackAfterTheCall := by
  intro nnn s t u hcall hslot hSP
  rcases s.SP_lt_or_full with ⟨k, hk⟩ | hfull
  case inr => rw [exec_call_of_full hfull] at hcall; cases hcall
  case inl =>
    rw [exec_call_of_SP hk] at hcall
    cases hcall
    have hpushed : u.slot k = s.PC + 2 := by
      rw [hslot, State.setPC_slot, State.slot_pushed, if_pos rfl]
    have huSP : u.SP.val = k.val + 1 := congrArg Fin.val hSP
    obtain ⟨v, hv, hPC, hvSP, hframe⟩ := (returnPopsTheStack u).1 k huSP
    exact ⟨v, hv, hPC.trans hpushed, Fin.ext (hvSP.trans hk.symm), hframe⟩

end Sys2Proof.Machine
end

section
/-! PROOFS. What the logic, arithmetic, shift and random instructions do (`41_load_alu.md` R153 to R163), over the shape
they share (a result, then the flag, then the advance) and the values of the flag and of a byte's arithmetic. -/

namespace Sys2Proof.Machine

/-! ## A result, then the flag, then the advance -/

theorem unchanged_setResultFlag_advance (s : State) (x : Reg) (v : Byte) (b : Bool) :
    Unchanged [.PC, .V] s (s.setResultFlag x v b).advance :=
  ((unchanged_setReg s x v).trans (unchanged_setReg_advance _ flagReg _)).mono (by simp)

theorem setResultFlag_advance_reg (s : State) (x : Reg) (v : Byte) (b : Bool) (r : Reg) :
    (s.setResultFlag x v b).advance.reg r = if r = 15 then flagByte b else if r = x then v else s.reg r := by
  rw [State.advance_eq, State.setPC_reg, State.reg_setResultFlag]

theorem setResultFlag_advance_PC (s : State) (x : Reg) (v : Byte) (b : Bool) :
    (s.setResultFlag x v b).advance.PC = s.PC + 2 := rfl

@[simp] theorem flagByte_toNat (b : Bool) : (flagByte b).toNat = if b then 1 else 0 := by
  cases b <;> rfl

/-- The registers after a result and a flag, as numbers (R162, R163). -/
theorem setResultFlag_advance_reg_toNat (s : State) (x : Reg) (v : Byte) (p : Prop) [Decidable p] (r : Reg) :
    ((s.setResultFlag x v (decide p)).advance.reg r).toNat =
      if r = 15 then if p then 1 else 0 else if r = x then v.toNat else (s.reg r).toNat := by
  rw [setResultFlag_advance_reg, apply_ite BitVec.toNat, apply_ite BitVec.toNat, flagByte_toNat]
  simp only [decide_eq_true_iff]

/-! ## Logic -/

theorem State.unchanged_setLogicResult (s : State) (x : Reg) (v : Byte) :
    Unchanged [.V] s (s.setLogicResult x v) := by
  unfold State.setLogicResult
  split
  · exact ((unchanged_setReg s x v).trans (unchanged_setReg _ flagReg _)).mono (by simp)
  · exact unchanged_setReg s x v

theorem unchanged_setLogicResult_advance (s : State) (x : Reg) (v : Byte) :
    Unchanged [.PC, .V] s (s.setLogicResult x v).advance :=
  ((s.unchanged_setLogicResult x v).trans (unchanged_setPC _ _)).mono (by simp)

/-- A logic instruction whose result has the bits `op` gives: what the three have in common (R153 to R155). -/
theorem yields_logic (s : State) (x y : Reg) (v : Byte) (op : Bool → Bool → Bool)
    (hv : ∀ k, v.getLsbD k = op ((s.reg x).getLsbD k) ((s.reg y).getLsbD k)) :
    Yields (.next (s.setLogicResult x v).advance) fun t => t.PC = s.PC + 2 ∧
      (∀ r k, (t.reg r).getLsbD k =
        if s.compatMode.getLsbD 0 = true ∧ r = 15 then false
        else if r = x then op ((s.reg x).getLsbD k) ((s.reg y).getLsbD k) else (s.reg r).getLsbD k) ∧
      Unchanged [.PC, .V] s t := by
  have hV := s.unchanged_setLogicResult x v
  have hPC : (s.setLogicResult x v).PC = s.PC := hV .PC (by decide)
  rw [yields_next, State.advance_eq]
  refine ⟨congrArg (· + 2) hPC, fun r k => ?bits, unchanged_setLogicResult_advance s x v⟩
  case bits =>
    rw [State.setPC_reg, State.reg_setLogicResult, ← hv, State.cosmac]
    split_ifs <;> simp

theorem exec_orReg (x y : Reg) (s : State) :
    exec (.orReg x y) s = .next (s.setLogicResult x (s.reg x ||| s.reg y)).advance := rfl

theorem exec_andReg (x y : Reg) (s : State) :
    exec (.andReg x y) s = .next (s.setLogicResult x (s.reg x &&& s.reg y)).advance := rfl

theorem exec_xorReg (x y : Reg) (s : State) :
    exec (.xorReg x y) s = .next (s.setLogicResult x (s.reg x ^^^ s.reg y)).advance := rfl

/-- Settles O17: the three differ in the result only, and its bits are those of the operation. -/
theorem logicClearsTheFlagUnderCosmac : Obligations.LogicClearsTheFlagUnderCosmac := by
  rintro x y s i op (⟨rfl, rfl⟩ | ⟨rfl, rfl⟩ | ⟨rfl, rfl⟩)
  · rw [exec_orReg]
    exact yields_logic s x y _ or fun _ => BitVec.getLsbD_or
  · rw [exec_andReg]
    exact yields_logic s x y _ and fun _ => BitVec.getLsbD_and
  · rw [exec_xorReg]
    exact yields_logic s x y _ xor fun _ => BitVec.getLsbD_xor

/-! ## Add and subtract -/

theorem exec_addReg (x y : Reg) (s : State) :
    exec (.addReg x y) s =
      .next (s.setResultFlag x (s.reg x + s.reg y) (carry (s.reg x) (s.reg y))).advance := rfl

theorem exec_subReg (x y : Reg) (s : State) :
    exec (.subReg x y) s =
      .next (s.setResultFlag x (s.reg x - s.reg y) (noBorrow (s.reg x) (s.reg y))).advance := rfl

theorem exec_subnReg (x y : Reg) (s : State) :
    exec (.subnReg x y) s =
      .next (s.setResultFlag x (s.reg y - s.reg x) (noBorrow (s.reg y) (s.reg x))).advance := rfl

/-- Settles O18: the sum is a byte's sum, and the flag its carry. -/
theorem addWritesSumThenCarry : Obligations.AddWritesSumThenCarry := by
  intro x y s
  rw [exec_addReg, yields_next]
  refine ⟨setResultFlag_advance_PC s x _ _, fun r => ?_, unchanged_setResultFlag_advance s x _ _⟩
  rw [carry, setResultFlag_advance_reg_toNat, BitVec.toNat_add]

/-- The difference of two bytes is the difference of their values, mod 256 (R157). -/
theorem byte_sub_toNat (a b : Byte) : ((a - b).toNat : Int) = ((a.toNat : Int) - b.toNat) % 256 := by
  have ha := a.isLt
  have hb := b.isLt
  rw [BitVec.toNat_sub]
  omega

/-- A subtraction of `b` from `a` into `V[x]`: what the two have in common (R157, R159). -/
theorem yields_subtract (s : State) (x : Reg) (a b : Byte) :
    Yields (.next (s.setResultFlag x (a - b) (noBorrow a b)).advance) fun t => t.PC = s.PC + 2 ∧
      (∀ r, ((t.reg r).toNat : Int) =
        if r = 15 then if b.toNat ≤ a.toNat then 1 else 0
        else if r = x then ((a.toNat : Int) - b.toNat) % 256 else (s.reg r).toNat) ∧
      Unchanged [.PC, .V] s t := by
  rw [yields_next]
  refine ⟨setResultFlag_advance_PC s x _ _, fun r => ?_, unchanged_setResultFlag_advance s x _ _⟩
  rw [noBorrow, setResultFlag_advance_reg_toNat, ← byte_sub_toNat]
  split_ifs <;> rfl

/-- Settles O19: one subtraction, with the operands either way round. -/
theorem subtractionsWriteDifferenceThenNotBorrow : Obligations.SubtractionsWriteDifferenceThenNotBorrow := by
  intro x y s
  rw [exec_subReg, exec_subnReg]
  exact ⟨yields_subtract s x _ _, yields_subtract s x _ _⟩

/-! ## Shifts -/

theorem exec_shrReg (x y : Reg) (s : State) :
    exec (.shrReg x y) s =
      .next (s.setResultFlag x (s.shiftSource x y >>> 1) (shiftedOutRight (s.shiftSource x y))).advance := rfl

theorem exec_shlReg (x y : Reg) (s : State) :
    exec (.shlReg x y) s =
      .next (s.setResultFlag x (s.shiftSource x y <<< 1) (shiftedOutLeft (s.shiftSource x y))).advance := rfl

theorem flagByte_shiftedOutRight (src : Byte) : (flagByte (shiftedOutRight src)).toNat = src.toNat % 2 := by
  rw [flagByte_toNat, shiftedOutRight, BitVec.getLsbD, Nat.testBit_zero]
  simp only [decide_eq_true_iff]
  split_ifs <;> omega

theorem flagByte_shiftedOutLeft (src : Byte) : (flagByte (shiftedOutLeft src)).toNat = src.toNat / 128 := by
  have hsrc := src.isLt
  rw [flagByte_toNat, shiftedOutLeft, BitVec.getLsbD, Nat.testBit_eq_decide_div_mod_eq]
  simp only [decide_eq_true_iff]
  split_ifs <;> omega

theorem byte_shiftRight_one_toNat (src : Byte) : (src >>> 1).toNat = src.toNat / 2 := by
  rw [BitVec.toNat_ushiftRight, Nat.shiftRight_eq_div_pow]

theorem byte_shiftLeft_one_toNat (src : Byte) : (src <<< 1).toNat = src.toNat * 2 % 256 := by
  rw [BitVec.toNat_shiftLeft, Nat.shiftLeft_eq]

/-- Settles O20: the source is the one the mode selects, and a shift by one halves or doubles it. -/
theorem shiftsMoveTheSourceByOne : Obligations.ShiftsMoveTheSourceByOne := by
  intro x y s src hsrc
  have hsource : s.shiftSource x y = src := hsrc.symm
  rw [exec_shrReg, exec_shlReg, hsource, yields_next, yields_next]
  refine ⟨⟨setResultFlag_advance_PC s x _ _, fun r => ?right, unchanged_setResultFlag_advance s x _ _⟩,
    setResultFlag_advance_PC s x _ _, fun r => ?left, unchanged_setResultFlag_advance s x _ _⟩
  case right =>
    rw [setResultFlag_advance_reg, apply_ite BitVec.toNat, apply_ite BitVec.toNat, flagByte_shiftedOutRight,
      byte_shiftRight_one_toNat]
  case left =>
    rw [setResultFlag_advance_reg, apply_ite BitVec.toNat, apply_ite BitVec.toNat, flagByte_shiftedOutLeft,
      byte_shiftLeft_one_toNat]

/-! ## Random -/

theorem exec_rnd (x : Reg) (nn : Byte) (s : State) :
    exec (.rnd x nn) s = .next ((s.setReg x (s.randByte &&& nn)).drawn).advance := rfl

theorem unchanged_drawn (s : State) : Unchanged [.randCount] s s.drawn := by
  intro p hp
  cases p with
  | randCount => simp at hp
  | _ => simp [Part.same]

theorem unchanged_setReg_drawn_advance (s : State) (x : Reg) (v : Byte) :
    Unchanged [.PC, .V, .randCount] s ((s.setReg x v).drawn).advance :=
  (((unchanged_setReg s x v).trans (unchanged_drawn _)).trans (unchanged_setPC _ _)).mono (by simp)

/-- Settles O21: one register written with the masked byte, and the draw counted. -/
theorem randomByteIsMasked : Obligations.RandomByteIsMasked := by
  intro x nn s
  have hreg (r : Reg) : ((s.setReg x (s.randByte &&& nn)).drawn).advance.reg r =
      if r = x then s.randByte &&& nn else s.reg r := by
    rw [State.advance_eq, State.setPC_reg, State.drawn_reg, State.reg_setReg]
  have hx := (hreg x).trans (if_pos rfl)
  rw [exec_rnd, yields_next]
  refine ⟨rfl, rfl, ⟨_, rfl, hx⟩, fun k hk => ?masked, fun q hq => (hreg q).trans (if_neg hq),
    unchanged_setReg_drawn_advance s x _⟩
  case masked => rw [hx, BitVec.getLsbD_and, hk, Bool.and_false]

end Sys2Proof.Machine
end

section
/-! PROOFS. What FX1E, FX33 and a store over the next instruction do, and that a block load undoes a block store
(`42_index_memory.md` R181, R183 to R186; `20_memory.md` R78). -/

namespace Sys2Proof.Machine

/-! ## FX1E -/

/-- FX1E with the flag it may force (R181). -/
theorem exec_addI (x : Reg) (s : State) :
    exec (.addI x) s =
      if s.indexOverflow (s.I + zextByte (s.reg x)) then
        .next (((s.setI (s.I + zextByte (s.reg x))).setReg flagReg 1).advance)
      else .next (s.setI (s.I + zextByte (s.reg x))).advance := rfl

theorem State.indexOverflow_iff (s : State) (newI : Word) :
    s.indexOverflow newI = true ↔ s.compatMode.getLsbD 2 = true ∧ 0x0FFF < newI.toNat := by
  rw [State.indexOverflow, State.amiga, Bool.and_eq_true, decide_eq_true_iff]

/-- Settles O23: the sum goes to `I` in both branches, and the flag register is written in the branch of the overflow
under AMIGA only. -/
theorem addToIndexSetsTheFlagUnderAmiga : Obligations.AddToIndexSetsTheFlagUnderAmiga := by
  intro x s
  have hsum : (s.I + zextByte (s.reg x)).toNat = (s.I.toNat + (s.reg x).toNat) % 65536 := by
    rw [BitVec.toNat_add, zextByte_toNat]
  have hover := s.indexOverflow_iff (s.I + zextByte (s.reg x))
  rw [exec_addI]
  generalize s.I + zextByte (s.reg x) = newI at hsum hover ⊢
  split
  case isTrue hflag =>
    rw [yields_next]
    have hframe := (unchanged_setI s newI).trans (unchanged_setReg_advance _ flagReg 1)
    refine ⟨rfl, hsum, fun r => ?_, hframe.mono (by simp)⟩
    obtain ⟨hamiga, hlimit⟩ := hover.mp hflag
    rw [setReg_advance_reg, State.setI_reg]
    exact if_congr ⟨fun h => ⟨hamiga, hlimit, h⟩, fun ⟨_, _, h⟩ => h⟩ rfl rfl
  case isFalse hflag =>
    rw [yields_next]
    refine ⟨rfl, hsum, fun r => ?_, (unchanged_setI_advance s newI).mono (by simp)⟩
    exact (if_neg fun ⟨hamiga, hlimit, _⟩ => hflag (hover.mpr ⟨hamiga, hlimit⟩)).symm

/-! ## FX33 -/

theorem exec_ldB (x : Reg) (s : State) :
    exec (.ldB x) s = .next (s.memWriteList (s.indexAddr 0) (bcdDigits (s.reg x))).advance := rfl

theorem State.memRead_memWriteList_bcdDigits (s : State) (b : Byte) (k : Nat) (hk : k < 3) :
    (s.memWriteList (s.indexAddr 0) (bcdDigits b)).memRead (s.indexAddr k) = (bcdDigits b)[k] := by
  have hfit : (bcdDigits b).length ≤ Config.memSize := by simp [bcdDigits, Config.memSize]
  exact State.memRead_memWriteList s (s.indexAddr 0) (bcdDigits b) hfit k hk

/-- Settles O24: the three digits read back where they were written, and the write touches no other byte. -/
theorem bcdStoresThreeDigits : Obligations.BcdStoresThreeDigits := by
  intro x s
  have hstore := unchanged_memWriteList s (s.indexAddr 0) (bcdDigits (s.reg x))
  have hdigit := s.memRead_memWriteList_bcdDigits (s.reg x)
  rw [exec_ldB, yields_next]
  simp only [State.advance_eq, State.setPC_memRead]
  refine ⟨congrArg (· + 2) (hstore .PC (by decide)), ?hundreds, ?tens, ?ones, fun a ha => ?others,
    (hstore.trans (unchanged_setPC _ _)).mono (by simp)⟩
  case hundreds => exact (congrArg BitVec.toNat (hdigit 0 (by decide))).trans (BitVec.toNat_udiv ..)
  case tens =>
    refine (congrArg BitVec.toNat (hdigit 1 (by decide))).trans ?_
    exact (BitVec.toNat_umod ..).trans (congrArg (· % 10) (BitVec.toNat_udiv ..))
  case ones => exact (congrArg BitVec.toNat (hdigit 2 (by decide))).trans (BitVec.toNat_umod ..)
  case others => exact State.memRead_memWriteList_outside s _ _ a ha

/-! ## Block store and load -/

/-- Settles O27: the load reads the addresses the store wrote, since both start from the same index. -/
theorem blockLoadUndoesBlockStore : Obligations.BlockLoadUndoesBlockStore := by
  intro x s t u hstore hmem hI
  obtain ⟨-, hstored, -⟩ := (blockStoreWritesTheRegisters x s).of_eq_next hstore
  obtain ⟨v, hv, -, hloaded, -⟩ := blockLoadReadsTheRegisters x u
  refine ⟨v, hv, fun r hr => ?_⟩
  calc v.reg r = u.memRead (s.indexAddr r.val) := by rw [hloaded, if_pos hr, hI, State.memRead_mod, State.indexAddr]
    _ = s.reg r := by rw [hmem, hstored r hr]

theorem State.fetch16_of_le {s : State} (h : s.PC.toNat ≤ 4094) :
    s.fetch16 = some (wordOfBytes (s.memRead s.PC.toNat) (s.memRead (s.PC.toNat + 1))) :=
  if_pos (s.pcInRange_iff.mpr h)

/-- Settles O28: the first two bytes of the store stand at the next `PC`, each address mod 4096. -/
theorem storedInstructionIsFetchedNext : Obligations.StoredInstructionIsFetchedNext := by
  intro x s t hx hPC hI hstore
  obtain ⟨hnext, hstored, -⟩ := (blockStoreWritesTheRegisters x s).of_eq_next hstore
  have hsum : t.PC.toNat = s.PC.toNat + 2 := by
    rw [hnext, BitVec.toNat_add]
    exact Nat.mod_eq_of_lt (by have : (2 : Word).toNat = 2 := rfl; omega)
  have hbyte (k : Reg) (hk : k.val ≤ 1) : t.memRead (t.PC.toNat + k.val) = s.reg k := by
    have haddr : t.PC.toNat + k.val = s.indexAddr k.val % 4096 := by rw [State.indexAddr]; omega
    rw [haddr, State.memRead_mod, hstored k (Fin.le_def.mpr (hk.trans hx))]
  rw [State.fetch16_of_le (by omega)]
  exact congrArg₂ (fun hi lo => some (wordOfBytes hi lo)) (hbyte 0 (by decide)) (hbyte 1 (by decide))

end Sys2Proof.Machine
end

section
/-! PROOFS. What the key skips, the key wait and the timer instructions do (`43_keypad_timers.md` R202 to R208). -/

namespace Sys2Proof.Machine

/-! ## Keys -/

theorem exec_skp (x : Reg) (s : State) :
    exec (.skp x) s = .next (s.skipIf (s.key (lowNibble (s.reg x)))) := rfl

theorem exec_sknp (x : Reg) (s : State) :
    exec (.sknp x) s = .next (s.skipIf (!s.key (lowNibble (s.reg x)))) := rfl

/-- Settles O29: a conditional skip on the level of the key, or on its negation. -/
theorem keySkipsReadTheLevel : Obligations.KeySkipsReadTheLevel := by
  intro x k s hk
  have hkey : lowNibble (s.reg x) = k := Fin.ext ((lowNibble_val _).trans hk.symm)
  rw [exec_skp, exec_sknp, hkey]
  constructor
  · simpa using yields_skipIf s (s.key k = true)
  · simpa using yields_skipIf_not s (s.key k = true)

/-! ## The key wait -/

/-- The four rows of the table exclude no state (R205). -/
theorem State.keyWait_rows (s : State) :
    (s.kwPhase = .waitPress ∧ s.keyJustPressed = false) ∨ (s.kwPhase = .waitPress ∧ s.keyJustPressed = true) ∨
      (s.kwPhase = .waitRelease ∧ s.key s.kwKey = true) ∨ (s.kwPhase = .waitRelease ∧ s.key s.kwKey = false) := by
  cases s.kwPhase with
  | waitPress => cases s.keyJustPressed <;> simp
  | waitRelease => cases s.key s.kwKey <;> simp

theorem exec_ldVxK_of_noEdge {s : State} (hphase : s.kwPhase = .waitPress) (hedge : s.keyJustPressed = false)
    (x : Reg) : exec (.ldVxK x) s = .next s := by
  simp [exec, execLdVxK, hphase, hedge]

theorem exec_ldVxK_of_edge {s : State} (hphase : s.kwPhase = .waitPress) (hedge : s.keyJustPressed = true)
    (x : Reg) : exec (.ldVxK x) s = .next (s.setKeyWait .waitRelease s.lastKey) := by
  simp [exec, execLdVxK, hphase, hedge]

theorem exec_ldVxK_of_held {s : State} (hphase : s.kwPhase = .waitRelease) (hheld : s.key s.kwKey = true)
    (x : Reg) : exec (.ldVxK x) s = .next s := by
  simp [exec, execLdVxK, hphase, hheld]

theorem exec_ldVxK_of_released {s : State} (hphase : s.kwPhase = .waitRelease) (hheld : s.key s.kwKey = false)
    (x : Reg) :
    exec (.ldVxK x) s = .next ((s.setReg x (keyByte s.kwKey)).setKeyWait .waitPress s.kwKey).advance := by
  simp [exec, execLdVxK, hphase, hheld]

theorem unchanged_setKeyWait (s : State) (phase : KwPhase) (key : Fin 16) :
    Unchanged [.kwPhase, .kwKey] s (s.setKeyWait phase key) := by
  intro p hp
  cases p with
  | kwPhase | kwKey => simp at hp
  | _ => simp [Part.same]

/-- The latched key stays latched when the wait completes (R205). -/
theorem unchanged_setKeyWait_same (s : State) (phase : KwPhase) :
    Unchanged [.kwPhase] s (s.setKeyWait phase s.kwKey) := by
  intro p hp
  by_cases hkey : p = .kwKey
  · subst hkey; rfl
  · exact unchanged_setKeyWait s phase s.kwKey p (by simp_all)

theorem keyByte_toNat (k : Fin 16) : (keyByte k).toNat = k.val := by
  have hk := k.isLt
  rw [keyByte, BitVec.toNat_ofNat, Nat.mod_eq_of_lt (by omega)]

/-- Settles O30: the four rows of the table, one lemma each. -/
theorem keyWaitFollowsItsTable : Obligations.KeyWaitFollowsItsTable := by
  intro x s
  refine ⟨fun hphase hedge => exec_ldVxK_of_noEdge hphase hedge x, fun hphase hedge => ?latch,
    fun hphase hheld => exec_ldVxK_of_held hphase hheld x, fun hphase hheld => ?complete⟩
  case latch =>
    rw [exec_ldVxK_of_edge hphase hedge, yields_next]
    exact ⟨rfl, rfl, unchanged_setKeyWait s _ _⟩
  case complete =>
    have hframe := ((unchanged_setReg s x (keyByte s.kwKey)).trans
      (unchanged_setKeyWait_same _ .waitPress)).trans (unchanged_setPC _ (s.PC + 2))
    rw [exec_ldVxK_of_released hphase hheld, yields_next]
    refine ⟨rfl, rfl, fun r => ?_, hframe.mono (by simp)⟩
    rw [State.advance_eq, State.setPC_reg, State.setKeyWait_reg, State.reg_setReg, apply_ite BitVec.toNat,
      keyByte_toNat]

/-! ## Timers -/

theorem exec_ldVxDt (x : Reg) (s : State) : exec (.ldVxDt x) s = .next (s.setReg x s.DT).advance := rfl

theorem exec_ldDtVx (x : Reg) (s : State) : exec (.ldDtVx x) s = .next (s.setDT (s.reg x)).advance := rfl

theorem unchanged_setDT (s : State) (v : Byte) : Unchanged [.DT] s (s.setDT v) := by
  intro p hp
  cases p with
  | DT => simp at hp
  | _ => simp [Part.same]

/-- Settles O34: one register or the timer written, then the advance. -/
theorem delayTimerMoves : Obligations.DelayTimerMoves := by
  intro x s
  rw [exec_ldVxDt, exec_ldDtVx, yields_next, yields_next]
  exact ⟨⟨setReg_advance_PC s x _, setReg_advance_reg s x _, unchanged_setReg_advance s x _⟩, rfl, rfl,
    ((unchanged_setDT s _).trans (unchanged_setPC _ _)).mono (by simp)⟩

theorem exec_ldStVx (x : Reg) (s : State) :
    exec (.ldStVx x) s = if s.reg x = 0 then .next (s.setST (s.reg x)).advance
      else .next ((s.setST (s.reg x)).setSound .play).advance := rfl

theorem unchanged_setST (s : State) (v : Byte) : Unchanged [.ST] s (s.setST v) := by
  intro p hp
  cases p with
  | ST => simp at hp
  | _ => simp [Part.same]

theorem unchanged_setSound (s : State) (v : Sound) : Unchanged [.soundSignal] s (s.setSound v) := by
  intro p hp
  cases p with
  | soundSignal => simp at hp
  | _ => simp [Part.same]

/-- Settles O35: the timer is written on both branches, the signal on that of a non-zero value. -/
theorem soundTimerWriteStartsTheTone : Obligations.SoundTimerWriteStartsTheTone := by
  intro x s
  have hzero : s.reg x = 0 ↔ (s.reg x).toNat = 0 := BitVec.toNat_inj.symm
  rw [exec_ldStVx]
  split
  case isTrue h =>
    rw [yields_next, if_pos (hzero.mp h)]
    exact ⟨rfl, rfl, rfl, ((unchanged_setST s _).trans (unchanged_setPC _ _)).mono (by simp)⟩
  case isFalse h =>
    rw [yields_next, if_neg (mt hzero.mpr h)]
    exact ⟨rfl, rfl, rfl,
      (((unchanged_setST s _).trans (unchanged_setSound _ .play)).trans (unchanged_setPC _ _)).mono (by simp)⟩

end Sys2Proof.Machine
end

section
/-! PROOFS. What CLS does, and the two corner cases of DRW: no rows, and the same sprite drawn twice
(`44_display_sprite.md` R230, R234, R236, R237). -/

namespace Sys2Proof.Machine

theorem exec_cls (s : State) : exec .cls s = .next (s.setDisp blankDisplay).advance := rfl

/-- Settles O36: the blank display with its redraw request, then the advance. -/
theorem clearScreenBlanksTheDisplay : Obligations.ClearScreenBlanksTheDisplay := by
  intro s
  rw [exec_cls, yields_next]
  exact ⟨rfl, fun y x => blankDisplay_cell y y.isLt x x.isLt, rfl,
    ((unchanged_setDisp s _).trans (unchanged_setPC _ _)).mono (by simp)⟩

/-- A sprite of no rows targets no cell. -/
theorem State.not_targeted_zero (s : State) (x y : Reg) (r : Fin 32) (c : Fin 64) : ¬ s.targeted x y 0 r c :=
  fun ⟨row, _, hrow, _⟩ => Nat.not_lt_zero row hrow

/-- Settles O38: no cell is targeted, so none changes and there is no collision. -/
theorem drawOfNoRowsDrawsNothing : Obligations.DrawOfNoRowsDrawsNothing := by
  intro x y s
  obtain ⟨t, ht, hPC, hredraw, hcells, -, hclear, hothers, hframe⟩ := drawTogglesTheTargetedCells x y 0 s
  refine ⟨t, ht, hPC, hredraw, fun q => ?reg, fun p hp => ?frame⟩
  case reg =>
    split
    case isTrue hq => rw [hq]; exact hclear fun ⟨r, c, htarget, _⟩ => s.not_targeted_zero x y r c htarget
    case isFalse hq => exact hothers q hq
  case frame =>
    by_cases hdisp : p = .disp
    · subst hdisp
      exact fun r c => not_ne_iff.mp (mt (hcells r c).mp (s.not_targeted_zero x y r c))
    · exact hframe p (by simp_all)

/-- The same bytes, index and origin target the same cells (R231, R233). -/
theorem State.targeted_congr {s t : State} (hmem : Part.mem.same s t) (hI : Part.I.same s t) {x y : Reg}
    (hx : (t.reg x).toNat % 64 = (s.reg x).toNat % 64) (hy : (t.reg y).toNat % 32 = (s.reg y).toNat % 32)
    (n : Nibble) (r : Fin 32) (c : Fin 64) : t.targeted x y n r c ↔ s.targeted x y n r c := by
  have hI : t.I = s.I := hI
  have hmem (a : Nat) : t.memRead a = s.memRead a := hmem a
  simp only [State.targeted, hI, hmem, hx, hy]

/-- Settles O39: both draws toggle the same cells, and toggling twice is no change; a cell the second draw finds set is
one the first found clear. -/
theorem drawingTwiceRestoresTheDisplay : Obligations.DrawingTwiceRestoresTheDisplay := by
  intro x y n s t hfirst hx hy
  obtain ⟨-, -, htoggle, -, -, -, hframe⟩ := (drawTogglesTheTargetedCells x y n s).of_eq_next hfirst
  obtain ⟨u, hu, -, -, hback, hset, hclear, -, -⟩ := drawTogglesTheTargetedCells x y n t
  have htarget := State.targeted_congr (hframe .mem (by decide)) (hframe .I (by decide)) hx hy n
  have hwas (r : Fin 32) (c : Fin 64) (h : s.targeted x y n r c) : t.cell r c = true ↔ s.cell r c = false := by
    have hflip : ∀ old new : Bool, new ≠ old → (new = true ↔ old = false) := by decide
    exact hflip _ _ ((htoggle r c).mpr h)
  have hcollision : (∃ r c, t.targeted x y n r c ∧ t.cell r c = true) ↔
      ∃ r c, s.targeted x y n r c ∧ s.cell r c = false :=
    exists_congr fun r => exists_congr fun c =>
      ⟨fun ⟨h, hc⟩ => ⟨(htarget r c).mp h, (hwas r c ((htarget r c).mp h)).mp hc⟩,
        fun ⟨h, hc⟩ => ⟨(htarget r c).mpr h, (hwas r c h).mpr hc⟩⟩
  refine ⟨u, hu, fun r c => ?cell, ?flag⟩
  case cell =>
    have htwice : ∀ a b c : Bool, (c ≠ b ↔ b ≠ a) → c = a := by decide
    exact htwice _ _ _ ((hback r c).trans ((htarget r c).trans (htoggle r c).symm))
  case flag =>
    rw [← hcollision]
    refine ⟨fun hone => by_contra fun hmiss => ?_, hset⟩
    rw [hclear hmiss] at hone
    exact absurd hone (by decide)

end Sys2Proof.Machine
end

section
/-! PROOFS. Rules of every instruction: which parts it may write (`20_memory.md` R66, `10_state.md` R25 to R41, R46),
that only the stack can stop it (`60_exceptions.md` R286, R288), and what it does not read (`00_scope.md` R9,
`10_state.md` R29). -/

namespace Sys2Proof.Machine

/-! ## What can stop an instruction -/

/-- Settles O49: RET and CALL by the depth of the stack; every other meaning is a next state on each of its branches. -/
theorem instructionsCompleteButForTheStack : Obligations.InstructionsCompleteButForTheStack := by
  intro i s
  have hyields {r : Result} {P : State → Prop} (h : Yields r P) : ∃ t, r = .next t := h.imp fun _ => And.left
  cases i with
  | ret =>
    rcases s.SP_succ_or_empty with ⟨k, hk⟩ | hempty
    · exact .inl ⟨_, exec_ret_of_SP hk⟩
    · exact .inr (.inr ⟨rfl, hempty, exec_ret_of_empty hempty⟩)
  | call nnn =>
    rcases s.SP_lt_or_full with ⟨k, hk⟩ | hfull
    · exact .inl ⟨_, exec_call_of_SP hk nnn⟩
    · exact .inr (.inl ⟨⟨nnn, rfl⟩, hfull, exec_call_of_full hfull nnn⟩)
  | addI x => exact .inl (hyields (addToIndexSetsTheFlagUnderAmiga x s))
  | ldStVx x => exact .inl (hyields (soundTimerWriteStartsTheTone x s))
  | ldVxK x =>
    left
    rcases s.keyWait_rows with ⟨hphase, hedge⟩ | ⟨hphase, hedge⟩ | ⟨hphase, hkey⟩ | ⟨hphase, hkey⟩
    · exact ⟨_, exec_ldVxK_of_noEdge hphase hedge x⟩
    · exact ⟨_, exec_ldVxK_of_edge hphase hedge x⟩
    · exact ⟨_, exec_ldVxK_of_held hphase hkey x⟩
    · exact ⟨_, exec_ldVxK_of_released hphase hkey x⟩
  | _ => exact .inl ⟨_, rfl⟩

theorem exec_eq_fault {i : Instr} {s : State} {f : Fault} (h : exec i s = .fault f) :
    f = .stackOverflow ∨ f = .stackUnderflow := by
  rcases instructionsCompleteButForTheStack i s with ⟨t, ht⟩ | ⟨-, -, hover⟩ | ⟨-, -, hunder⟩
  · cases h.symm.trans ht
  · cases h.symm.trans hover; exact .inl rfl
  · cases h.symm.trans hunder; exact .inr rfl

/-! ## What an instruction may write -/

/-- The parts of the state an instruction may write (R66; R25, R26, R28, R29, R32, R36, R38, R39, R41). -/
def writtenParts : Instr → List Part
  | .cls => [.PC, .disp, .redrawFlag]
  | .ret => [.PC, .SP]
  | .call _ => [.PC, .SP, .stack]
  | .ldImm _ _ | .addImm _ _ | .ldReg _ _ | .orReg _ _ | .andReg _ _ | .xorReg _ _ | .addReg _ _ | .subReg _ _
  | .shrReg _ _ | .subnReg _ _ | .shlReg _ _ | .ldVxDt _ => [.PC, .V]
  | .rnd _ _ => [.PC, .V, .randCount]
  | .drw _ _ _ => [.PC, .disp, .V, .redrawFlag]
  | .ldI _ | .ldF _ => [.PC, .I]
  | .addI _ => [.PC, .I, .V]
  | .ldB _ => [.PC, .mem]
  | .ldMemVx _ => [.PC, .mem, .I]
  | .ldVxMem _ => [.PC, .V, .I]
  | .ldVxK _ => [.PC, .V, .kwPhase, .kwKey]
  | .ldDtVx _ => [.PC, .DT]
  | .ldStVx _ => [.PC, .ST, .soundSignal]
  | .jp _ | .jpV0 _ | .seImm _ _ | .sneImm _ _ | .seReg _ _ | .sneReg _ _ | .skp _ | .sknp _
  | .nop0 _ | .nop8 _ _ _ | .nopE _ _ | .nopF _ _ => [.PC]

/-- Everything `LD Vx, K` can do: retry, latch the pressed key, or complete (R205). -/
theorem exec_ldVxK_cases {x : Reg} {s t : State} (h : exec (.ldVxK x) s = .next t) :
    t = s ∨ t = s.setKeyWait .waitRelease s.lastKey ∨
      t = ((s.setReg x (keyByte s.kwKey)).setKeyWait .waitPress s.kwKey).advance := by
  rcases s.keyWait_rows with ⟨hphase, hedge⟩ | ⟨hphase, hedge⟩ | ⟨hphase, hkey⟩ | ⟨hphase, hkey⟩
  · rw [exec_ldVxK_of_noEdge hphase hedge] at h; cases h; exact .inl rfl
  · rw [exec_ldVxK_of_edge hphase hedge] at h; cases h; exact .inr (.inl rfl)
  · rw [exec_ldVxK_of_held hphase hkey] at h; cases h; exact .inl rfl
  · rw [exec_ldVxK_of_released hphase hkey] at h; cases h; exact .inr (.inr rfl)

theorem unchanged_ldVxK {x : Reg} {s t : State} (h : exec (.ldVxK x) s = .next t) :
    Unchanged [.PC, .V, .kwPhase, .kwKey] s t := by
  rcases exec_ldVxK_cases h with rfl | rfl | rfl
  · exact fun p _ => Part.same_refl p _
  · exact (unchanged_setKeyWait s _ _).mono (by simp)
  · exact (((unchanged_setReg s x _).trans (unchanged_setKeyWait _ _ _)).trans (unchanged_setPC _ _)).mono (by simp)

/-- No instruction writes a part that is not among its `writtenParts`. -/
theorem unchanged_exec {i : Instr} {s t : State} (h : exec i s = .next t) : Unchanged (writtenParts i) s t := by
  cases i with
  | cls =>
    obtain ⟨-, -, -, hframe⟩ := (clearScreenBlanksTheDisplay s).of_eq_next h
    exact hframe
  | ret =>
    rcases s.SP_succ_or_empty with ⟨k, hk⟩ | hempty
    · obtain ⟨-, -, hframe⟩ := ((returnPopsTheStack s).1 k hk).of_eq_next h
      exact hframe
    · cases h.symm.trans (exec_ret_of_empty hempty)
  | call nnn =>
    rcases s.SP_lt_or_full with ⟨k, hk⟩ | hfull
    · obtain ⟨-, -, -, hframe⟩ := ((callPushesTheReturnAddress nnn s).1 k hk).of_eq_next h
      exact hframe
    · cases h.symm.trans (exec_call_of_full hfull nnn)
  | jp nnn => exact ((jumpsSetThePC nnn s).1.of_eq_next h).2
  | jpV0 nnn => exact ((jumpsSetThePC nnn s).2.of_eq_next h).2
  | seImm x nn => cases h; exact unchanged_skipIf s _
  | sneImm x nn => cases h; exact unchanged_skipIf s _
  | seReg x y => cases h; exact unchanged_skipIf s _
  | sneReg x y => cases h; exact unchanged_skipIf s _
  | skp x => cases h; exact unchanged_skipIf s _
  | sknp x => cases h; exact unchanged_skipIf s _
  | ldImm x nn => cases h; exact unchanged_setReg_advance s x _
  | addImm x nn => cases h; exact unchanged_setReg_advance s x _
  | ldReg x y => cases h; exact unchanged_setReg_advance s x _
  | ldVxDt x => cases h; exact unchanged_setReg_advance s x _
  | orReg x y => cases h; exact unchanged_setLogicResult_advance s x _
  | andReg x y => cases h; exact unchanged_setLogicResult_advance s x _
  | xorReg x y => cases h; exact unchanged_setLogicResult_advance s x _
  | addReg x y => cases h; exact unchanged_setResultFlag_advance s x _ _
  | subReg x y => cases h; exact unchanged_setResultFlag_advance s x _ _
  | subnReg x y => cases h; exact unchanged_setResultFlag_advance s x _ _
  | shrReg x y => cases h; exact unchanged_setResultFlag_advance s x _ _
  | shlReg x y => cases h; exact unchanged_setResultFlag_advance s x _ _
  | rnd x nn => cases h; exact unchanged_setReg_drawn_advance s x _
  | drw x y n => cases h; exact unchanged_setDisp_setReg_advance s _ flagReg _
  | ldI nnn => cases h; exact unchanged_setI_advance s _
  | ldF x => cases h; exact unchanged_setI_advance s _
  | addI x =>
    obtain ⟨-, -, -, hframe⟩ := (addToIndexSetsTheFlagUnderAmiga x s).of_eq_next h
    exact hframe
  | ldB x => cases h; exact ((unchanged_memWriteList s _ _).trans (unchanged_setPC _ _)).mono (by simp [writtenParts])
  | ldMemVx x => cases h; exact (unchanged_memWriteList s _ _).setI_advance _
  | ldVxMem x => cases h; exact (unchanged_loadRegs s x).setI_advance _
  | ldVxK x => exact unchanged_ldVxK h
  | ldDtVx x => exact ((delayTimerMoves x s).2.of_eq_next h).2.2
  | ldStVx x =>
    obtain ⟨-, -, -, hframe⟩ := (soundTimerWriteStartsTheTone x s).of_eq_next h
    exact hframe
  | nop0 | nop8 | nopE | nopF => cases h; exact unchanged_setPC s _

/-- Settles O50: none of the parts an instruction may write belongs to the host. -/
theorem noInstructionTouchesTheHostsState : Obligations.NoInstructionTouchesTheHostsState := by
  intro i s t h
  refine (unchanged_exec h).mono ?_
  cases i <;> simp [writtenParts]

/-! ## Who writes what -/

section Writers

variable {i : Instr} {s t : State} (h : exec i s = .next t)
include h

theorem exec_keeps_mem (hi : ∀ x, i ≠ .ldB x ∧ i ≠ .ldMemVx x) : Part.mem.same s t :=
  unchanged_exec h .mem (by cases i <;> simp_all [writtenParts])

theorem exec_keeps_display (hi : i ≠ .cls ∧ ∀ x y n, i ≠ .drw x y n) :
    Part.disp.same s t ∧ Part.redrawFlag.same s t :=
  ⟨unchanged_exec h .disp (by cases i <;> simp_all [writtenParts]),
    unchanged_exec h .redrawFlag (by cases i <;> simp_all [writtenParts])⟩

theorem exec_keeps_stack (hi : ∀ nnn, i ≠ .call nnn) : Part.stack.same s t :=
  unchanged_exec h .stack (by cases i <;> simp_all [writtenParts])

theorem exec_keeps_SP (hi : i ≠ .ret ∧ ∀ nnn, i ≠ .call nnn) : Part.SP.same s t :=
  unchanged_exec h .SP (by cases i <;> simp_all [writtenParts])

theorem exec_keeps_DT (hi : ∀ x, i ≠ .ldDtVx x) : Part.DT.same s t :=
  unchanged_exec h .DT (by cases i <;> simp_all [writtenParts])

theorem exec_keeps_sound (hi : ∀ x, i ≠ .ldStVx x) : Part.ST.same s t ∧ Part.soundSignal.same s t :=
  ⟨unchanged_exec h .ST (by cases i <;> simp_all [writtenParts]),
    unchanged_exec h .soundSignal (by cases i <;> simp_all [writtenParts])⟩

theorem exec_keeps_keyWait (hi : ∀ x, i ≠ .ldVxK x) : Part.kwPhase.same s t ∧ Part.kwKey.same s t :=
  ⟨unchanged_exec h .kwPhase (by cases i <;> simp_all [writtenParts]),
    unchanged_exec h .kwKey (by cases i <;> simp_all [writtenParts])⟩

/-- A block transfer moves the index under COSMAC only (R184, R185). -/
theorem exec_keeps_I (hi : (∀ nnn, i ≠ .ldI nnn) ∧ ∀ x, i ≠ .addI x ∧ i ≠ .ldF x ∧
    (s.compatMode.getLsbD 0 = true → i ≠ .ldMemVx x ∧ i ≠ .ldVxMem x)) : Part.I.same s t := by
  obtain ⟨hldI, hother⟩ := hi
  have hblock (x : Reg) (hmode : ¬ s.compatMode.getLsbD 0 = true) : s.blockIndex x = s.I := if_neg hmode
  cases i with
  | ldI nnn => exact absurd rfl (hldI nnn)
  | addI x => exact absurd rfl (hother x).1
  | ldF x => exact absurd rfl (hother x).2.1
  | ldMemVx x => cases h; exact hblock x fun hmode => ((hother x).2.2 hmode).1 rfl
  | ldVxMem x => cases h; exact hblock x fun hmode => ((hother x).2.2 hmode).2 rfl
  | _ => exact unchanged_exec h .I (by simp [writtenParts])

end Writers

/-- Settles O51: the clauses one by one. -/
theorem eachSpaceHasItsOwnWriters : Obligations.EachSpaceHasItsOwnWriters := fun _ _ _ h =>
  ⟨exec_keeps_mem h, exec_keeps_display h, exec_keeps_stack h, exec_keeps_SP h, exec_keeps_I h, exec_keeps_DT h,
    exec_keeps_sound h, exec_keeps_keyWait h⟩

/-! ## Who writes the flag -/

theorem setReg_advance_flag_ne {s : State} {x : Reg} {v : Byte} (h : (s.setReg x v).advance.reg 15 ≠ s.reg 15) :
    x = 15 := by
  rw [setReg_advance_reg] at h
  by_contra hx
  exact h (if_neg (Ne.symm hx))

theorem setLogicResult_advance_flag_ne {s : State} {x : Reg} {v : Byte}
    (h : (s.setLogicResult x v).advance.reg 15 ≠ s.reg 15) : s.compatMode.getLsbD 0 = true ∨ x = 15 := by
  rw [State.advance_eq, State.setPC_reg, State.reg_setLogicResult] at h
  by_contra hneither
  obtain ⟨hmode, hx⟩ := not_or.mp hneither
  exact h ((if_neg fun hflag => hmode hflag.1).trans (if_neg (Ne.symm hx)))

/-- Settles O52: an instruction that may write a register and has no side effect on the flag writes its destination
only; the logic instructions and FX1E write the flag under their own condition. -/
theorem flagHasOnlyTheListedWriters : Obligations.FlagHasOnlyTheListedWriters := by
  intro i s t h hne
  cases i with
  | addReg x y | subReg x y | subnReg x y | shrReg x y | shlReg x y => exact .inr (.inl ⟨x, y, by simp⟩)
  | drw x y n => exact .inr (.inr (.inl ⟨x, y, n, rfl⟩))
  | orReg x y | andReg x y | xorReg x y =>
    cases h
    rcases setLogicResult_advance_flag_ne hne with hmode | rfl
    · exact .inl ⟨hmode, x, y, by simp⟩
    · exact .inr (.inr (.inr (.inr ⟨y, 0, by simp⟩)))
  | addI x =>
    obtain ⟨-, -, hreg, -⟩ := (addToIndexSetsTheFlagUnderAmiga x s).of_eq_next h
    obtain ⟨hmode, hlimit, -⟩ := by_contra fun hcond => hne ((hreg 15).trans (if_neg hcond))
    exact .inr (.inr (.inr (.inl ⟨hmode, hlimit, x, rfl⟩)))
  | ldImm x nn | addImm x nn =>
    cases h
    obtain rfl := setReg_advance_flag_ne hne
    exact .inr (.inr (.inr (.inr ⟨0, nn, by simp⟩)))
  | ldReg x y =>
    cases h
    obtain rfl := setReg_advance_flag_ne hne
    exact .inr (.inr (.inr (.inr ⟨y, 0, by simp⟩)))
  | ldVxDt x =>
    cases h
    obtain rfl := setReg_advance_flag_ne hne
    exact .inr (.inr (.inr (.inr ⟨0, 0, by simp⟩)))
  | rnd x nn =>
    obtain ⟨-, -, -, -, hothers, -⟩ := (randomByteIsMasked x nn s).of_eq_next h
    obtain rfl : x = 15 := by_contra fun hx => hne (hothers 15 (Ne.symm hx))
    exact .inr (.inr (.inr (.inr ⟨0, nn, by simp⟩)))
  | ldVxK x =>
    have hx : x = 15 := by
      rcases exec_ldVxK_cases h with rfl | rfl | rfl
      · exact absurd rfl hne
      · exact absurd (State.setKeyWait_reg ..) hne
      · exact setReg_advance_flag_ne hne
    exact .inr (.inr (.inr (.inr ⟨0, 0, by simp [hx]⟩)))
  | ldVxMem x =>
    obtain ⟨-, hreg, -⟩ := (blockLoadReadsTheRegisters x s).of_eq_next h
    have hle : 15 ≤ x := by_contra fun hx => hne ((hreg 15).trans (if_neg hx))
    exact .inr (.inr (.inr (.inr ⟨0, 0, by simp [Fin.last_le_iff.mp hle]⟩)))
  | _ => exact absurd (unchanged_exec h .V (by simp [writtenParts]) 15) hne

/-! ## What an instruction does not read -/

/-- The state with other values in the mode, the sound timer and the slot count. -/
def State.withUnread (m : BitVec 3) (v : Byte) (n : Nat) (s : State) : State :=
  { s with compatMode := m, ST := v, slots := n }

/-- Two modes agree on the bits the rules test, COSMAC and AMIGA (R9). -/
def sameModeBits (m m' : BitVec 3) : Prop := m.getLsbD 0 = m'.getLsbD 0 ∧ m.getLsbD 2 = m'.getLsbD 2

/-- The nine instructions that test the mode (R331). -/
def readsMode : Instr → Bool
  | .jpV0 _ | .orReg _ _ | .andReg _ _ | .xorReg _ _ | .shrReg _ _ | .shlReg _ _ | .addI _ | .ldMemVx _
  | .ldVxMem _ => true
  | _ => false

theorem mapNext_congr {f g : State → State} {r : Result} (h : ∀ t, r = .next t → f t = g t) :
    mapNext f r = mapNext g r := by
  cases r with
  | next t => exact congrArg Host.Outcome.next (h t rfl)
  | fault | refused => rfl

section Unread

variable (m : BitVec 3) (v : Byte) (n : Nat) (s : State)

theorem State.withUnread_I : (s.withUnread m v n).I = s.I := rfl

theorem State.withUnread_reg (r : Reg) : (s.withUnread m v n).reg r = s.reg r := rfl

theorem State.skipIf_withUnread (c : Bool) : (s.withUnread m v n).skipIf c = (s.skipIf c).withUnread m v n := by
  cases c <;> rfl

theorem State.memWriteList_withUnread (a : Nat) (bs : List Byte) :
    (s.withUnread m v n).memWriteList a bs = (s.memWriteList a bs).withUnread m v n := by
  induction bs generalizing s a with
  | nil => rfl
  | cons b bs ih => exact ih (s.memWrite a b) (a + 1)

theorem exec_ldVxK_withUnread (x : Reg) :
    exec (.ldVxK x) (s.withUnread m v n) = mapNext (State.withUnread m v n) (exec (.ldVxK x) s) := by
  rcases s.keyWait_rows with ⟨hphase, hedge⟩ | ⟨hphase, hedge⟩ | ⟨hphase, hkey⟩ | ⟨hphase, hkey⟩
  · rw [exec_ldVxK_of_noEdge hphase hedge, exec_ldVxK_of_noEdge (s := s.withUnread m v n) hphase hedge]; rfl
  · rw [exec_ldVxK_of_edge hphase hedge, exec_ldVxK_of_edge (s := s.withUnread m v n) hphase hedge]; rfl
  · rw [exec_ldVxK_of_held hphase hkey, exec_ldVxK_of_held (s := s.withUnread m v n) hphase hkey]; rfl
  · rw [exec_ldVxK_of_released hphase hkey, exec_ldVxK_of_released (s := s.withUnread m v n) hphase hkey]; rfl

/-! ### Under a mode that agrees on the bits tested -/

section SameMode

variable {m s} (h : sameModeBits m s.compatMode)
include h

theorem State.jumpOffset_withUnread (nnn : Addr12) : (s.withUnread m v n).jumpOffset nnn = s.jumpOffset nnn :=
  if_congr (by rw [show (s.withUnread m v n).cosmac = s.cosmac from h.1]) rfl rfl

theorem State.shiftSource_withUnread (x y : Reg) : (s.withUnread m v n).shiftSource x y = s.shiftSource x y :=
  if_congr (by rw [show (s.withUnread m v n).cosmac = s.cosmac from h.1]) rfl rfl

theorem State.blockIndex_withUnread (x : Reg) : (s.withUnread m v n).blockIndex x = s.blockIndex x :=
  if_congr (by rw [show (s.withUnread m v n).cosmac = s.cosmac from h.1]) rfl rfl

theorem State.indexOverflow_withUnread (newI : Word) :
    (s.withUnread m v n).indexOverflow newI = s.indexOverflow newI :=
  congrArg (· && decide (0x0FFF < newI.toNat)) h.2

theorem State.setLogicResult_withUnread (x : Reg) (b : Byte) :
    (s.withUnread m v n).setLogicResult x b = (s.setLogicResult x b).withUnread m v n := by
  unfold State.setLogicResult
  rw [show (s.withUnread m v n).cosmac = s.cosmac from h.1]
  split <;> rfl

end SameMode

theorem exec_withUnread {i : Instr} (hST : ∀ x, i ≠ .ldStVx x)
    (hmode : readsMode i = true → sameModeBits m s.compatMode) :
    exec i (s.withUnread m v n) = mapNext (State.withUnread m v n) (exec i s) := by
  cases i with
  | ret =>
    rcases s.SP_succ_or_empty with ⟨k, hk⟩ | hempty
    · rw [exec_ret_of_SP hk, exec_ret_of_SP (s := s.withUnread m v n) hk]; rfl
    · rw [exec_ret_of_empty hempty, exec_ret_of_empty (s := s.withUnread m v n) hempty]; rfl
  | call nnn =>
    rcases s.SP_lt_or_full with ⟨k, hk⟩ | hfull
    · rw [exec_call_of_SP hk, exec_call_of_SP (s := s.withUnread m v n) hk]; rfl
    · rw [exec_call_of_full hfull, exec_call_of_full (s := s.withUnread m v n) hfull]; rfl
  | seImm | sneImm | seReg | sneReg | skp | sknp =>
    exact congrArg Host.Outcome.next (s.skipIf_withUnread m v n _)
  | jpV0 nnn =>
    rw [exec_jpV0, exec_jpV0, State.jumpOffset_withUnread v n (hmode rfl)]; rfl
  | orReg x y | andReg x y | xorReg x y =>
    exact congrArg (fun u : State => Host.Outcome.next u.advance) (State.setLogicResult_withUnread v n (hmode rfl) x _)
  | shrReg x y =>
    rw [exec_shrReg, exec_shrReg, State.shiftSource_withUnread v n (hmode rfl)]; rfl
  | shlReg x y =>
    rw [exec_shlReg, exec_shlReg, State.shiftSource_withUnread v n (hmode rfl)]; rfl
  | addI x =>
    rw [exec_addI, exec_addI, State.indexOverflow_withUnread v n (hmode rfl), State.withUnread_I, State.withUnread_reg]
    split <;> rfl
  | ldB x =>
    exact congrArg (fun u : State => Host.Outcome.next u.advance) (s.memWriteList_withUnread m v n _ _)
  | ldMemVx x =>
    rw [exec_ldMemVx, exec_ldMemVx, State.blockIndex_withUnread v n (hmode rfl)]
    exact congrArg (fun u : State => Host.Outcome.next (u.setI _).advance) (s.memWriteList_withUnread m v n _ _)
  | ldVxMem x =>
    rw [exec_ldVxMem, exec_ldVxMem, State.blockIndex_withUnread v n (hmode rfl)]; rfl
  | ldVxK x => exact exec_ldVxK_withUnread m v n s x
  | ldStVx x => exact absurd rfl (hST x)
  | _ => rfl

/-- FX18 overwrites the sound timer, so its answer keeps its own (R208). -/
theorem exec_ldStVx_withUnread (x : Reg) :
    exec (.ldStVx x) (s.withUnread m v n) = mapNext (fun t => t.withUnread m t.ST n) (exec (.ldStVx x) s) := by
  rw [exec_ldStVx, exec_ldStVx, State.withUnread_reg]
  split <;> rfl

/-- No instruction reads the sound timer or the slot count, and only nine read the mode. -/
theorem exec_unread {i : Instr} (hmode : readsMode i = true → sameModeBits m s.compatMode) :
    exec i (s.withUnread m v n) =
      mapNext (fun t => t.withUnread m (if ∃ x, i = .ldStVx x then t.ST else v) n) (exec i s) := by
  by_cases hST : ∃ x, i = .ldStVx x
  · obtain ⟨x, rfl⟩ := hST
    simp only [Instr.ldStVx.injEq, exists_eq', if_true]
    exact exec_ldStVx_withUnread m v n s x
  · simp only [if_neg hST]
    exact exec_withUnread m v n s (fun x hx => hST ⟨x, hx⟩) hmode

end Unread

/-- The sound timer after an instruction: its own where FX18 wrote it, else the one before. -/
theorem exec_ST {i : Instr} {s t : State} (h : exec i s = .next t) :
    (if ∃ x, i = .ldStVx x then t.ST else s.ST) = t.ST := by
  split
  case isTrue => rfl
  case isFalse hi => exact (exec_keeps_sound h fun x hx => hi ⟨x, hx⟩).1.symm

/-- Settles O54: the mode replaced; the slot count is kept, and the sound timer too but by FX18, which writes it. -/
theorem modeMattersToNineInstructionsOnly : Obligations.ModeMattersToNineInstructionsOnly := by
  intro i m s hi
  have hmode : readsMode i = true → sameModeBits m s.compatMode := by
    rcases hi with ⟨hjump, hxy, hx⟩ | hbits
    · intro hread
      cases i <;> simp_all [readsMode]
    · exact fun _ => hbits
  refine (exec_unread m s.ST s.slots s hmode).trans (mapNext_congr fun t ht => ?_)
  have hslots : t.slots = s.slots := noInstructionTouchesTheHostsState i s t ht .slots (by decide)
  rw [exec_ST ht, ← hslots]
  rfl

/-- Settles O55: the sound timer replaced; the mode and the slot count are kept. -/
theorem soundTimerIsNotReadable : Obligations.SoundTimerIsNotReadable := by
  intro i v s
  refine (exec_unread s.compatMode v s.slots s fun _ => ⟨rfl, rfl⟩).trans (mapNext_congr fun t ht => ?_)
  have hkeeps := noInstructionTouchesTheHostsState i s t ht
  have hmode : t.compatMode = s.compatMode := hkeeps .compatMode (by decide)
  have hslots : t.slots = s.slots := hkeeps .slots (by decide)
  rw [← hmode, ← hslots]
  rfl

/-- The state with another slot count (log 12). -/
def State.withSlotCount (n : Nat) (s : State) : State := { s with slots := n }

/-- The slot count replaced; the mode is kept, and the sound timer too but by FX18, which writes it (log 12). -/
theorem exec_withSlotCount (i : Instr) (n : Nat) (s : State) :
    exec i (s.withSlotCount n) = mapNext (State.withSlotCount n) (exec i s) := by
  refine (exec_unread s.compatMode s.ST n s fun _ => ⟨rfl, rfl⟩).trans (mapNext_congr fun t ht => ?_)
  have hmode : t.compatMode = s.compatMode := noInstructionTouchesTheHostsState i s t ht .compatMode (by decide)
  rw [exec_ST ht, ← hmode]
  rfl

end Sys2Proof.Machine
end

section
/-! PROOFS. The fetch, one slot of a tick and the tick taken whole (`40_fetch_control_flow.md` R120, R121;
`45_frame_sequencer.md` R250 to R257; log 12), over an inversion of the step. -/

namespace Sys2Proof.Machine

/-! ## The fetch -/

/-- Settles O5: the two bytes of the fetch up to 4094, and none above. -/
theorem fetchIsBigEndianUpTo4094 : Obligations.FetchIsBigEndianUpTo4094 := fun _ =>
  ⟨fun hle => ⟨_, State.fetch16_of_le hle, wordOfBytes_toNat _ _⟩, State.fetch16_eq_none.mpr⟩

/-- Settles O56: a jump to its own address sets `PC` to what it is. -/
theorem selfJumpIsStable : Obligations.SelfJumpIsStable := by
  rintro s ⟨nnn, hfetch, htarget⟩
  obtain ⟨w, hw, hdecode⟩ := Option.map_eq_some_iff.mp hfetch
  have hstay : s.setPC (zext16 nnn) = s := by rw [htarget]; rfl
  simp only [executeOne, hw, hdecode, exec_jp, hstay]

/-! ## One slot -/

/-- A step inside a tick whose fetch or instruction faults (R251, R254, R283). -/
theorem step_of_fault {s : State} {left : Nat} {f : Fault} (hslot : s.atSlot left) (hf : executeOne s = .fault f) :
    step s = .next (closeTick (leaveLoop f s)) := by
  obtain ⟨hfault, hslots⟩ := hslot
  simp only [step, hfault, hslots, runSlot, hf]

theorem executeOne_of_outOfRange {s : State} (h : 4094 < s.PC.toNat) : executeOne s = .fault .pcOutOfRange := by
  simp only [executeOne, State.fetch16_eq_none.mpr h, raiseFault]

theorem executeOne_of_fetch {s : State} {w : Word} (h : s.fetch16 = some w) : executeOne s = exec (decode w) s := by
  simp only [executeOne, h]

/-- Everything `executeOne` can fault with: the fetch out of range, or a stack fault of the instruction (R120). -/
theorem executeOne_eq_fault {s : State} {f : Fault} (h : executeOne s = .fault f) :
    (f = .pcOutOfRange ∧ 4094 < s.PC.toNat) ∨ f = .stackOverflow ∨ f = .stackUnderflow := by
  by_cases hle : s.PC.toNat ≤ 4094
  · rw [executeOne_of_fetch (State.fetch16_of_le hle)] at h
    exact .inr (exec_eq_fault h)
  · rw [executeOne_of_outOfRange (by omega)] at h
    cases h
    exact .inl ⟨rfl, by omega⟩

theorem unchanged_closeTick (s : State) : Unchanged [.slots, .renderReq, .keyJustPressed] s (closeTick s) := by
  intro p hp
  cases p with
  | slots | renderReq | keyJustPressed => simp at hp
  | _ => simp [Part.same]

theorem unchanged_leaveLoop_pcOutOfRange (s : State) : Unchanged [.pcOor] s (leaveLoop .pcOutOfRange s) := by
  intro p hp
  cases p with
  | pcOor => simp at hp
  | V | stack | mem | keys => exact fun _ => rfl
  | disp => exact fun _ _ => rfl
  | _ => rfl

/-- Every fault but that of the fetch is recorded and changes nothing else (R283, R284). -/
theorem leaveLoop_of_recorded {f : Fault} (hf : f ≠ .pcOutOfRange) (s : State) :
    leaveLoop f s = { s with faulted := some f } := by
  cases f with
  | pcOutOfRange => exact absurd rfl hf
  | _ => rfl

theorem unchanged_faulted (s : State) (f : Option Fault) : Unchanged [.faulted] s { s with faulted := f } := by
  intro p hp
  cases p with
  | faulted => simp at hp
  | V | stack | mem | keys => exact fun _ => rfl
  | disp => exact fun _ _ => rfl
  | _ => rfl

/-- Settles O6: the fetched bytes are the decoded word, and a slot that completes counts itself or closes the tick. -/
theorem stepRunsTheDecodedInstruction : Obligations.StepRunsTheDecodedInstruction := by
  intro s s' left hi lo i rest hslot hPC hhi hlo hdecode hexec
  have hfetch := State.fetch16_of_le hPC
  have hi : decode (wordOfBytes hi lo) = i := by cases hdecode; rfl
  rw [hhi, hlo] at hfetch
  rw [← hi] at hexec
  rw [step_of_atSlot hslot hfetch hexec, withSlots_eq]
  rfl

/-- Settles O8: the fetch faults, which is reported, and the tick closes. -/
theorem outOfRangeFetchClosesTheTick : Obligations.OutOfRangeFetchClosesTheTick := by
  intro s left hslot hPC
  rw [step_of_fault hslot (executeOne_of_outOfRange hPC), yields_next]
  exact ⟨rfl, rfl, rfl, rfl, (unchanged_leaveLoop_pcOutOfRange s).trans (unchanged_closeTick _)⟩

/-- Settles O9: the fault of an instruction is one of the recorded ones. -/
theorem stackFaultIsRecordedForGood : Obligations.StackFaultIsRecordedForGood := by
  constructor
  · intro s left w f hslot hfetch hexec
    have hrecorded : f ≠ .pcOutOfRange := by rcases exec_eq_fault hexec with rfl | rfl <;> decide
    rw [step_of_fault hslot ((executeOne_of_fetch hfetch).trans hexec), leaveLoop_of_recorded hrecorded, yields_next]
    exact ⟨rfl, rfl, rfl, rfl, (unchanged_faulted s _).trans (unchanged_closeTick _)⟩
  · intro s f hf
    simp only [step, hf]

/-! ## The loop of a tick -/

/-- `executeOne` answers a next state or a fault, never a refusal. -/
theorem executeOne_total (s : State) :
    (∃ w t, s.fetch16 = some w ∧ exec (decode w) s = .next t ∧ executeOne s = .next t) ∨
      ∃ f, executeOne s = .fault f := by
  by_cases hle : s.PC.toNat ≤ 4094
  · have hfetch := State.fetch16_of_le hle
    rw [executeOne_of_fetch hfetch]
    rcases instructionsCompleteButForTheStack (decode _) s with ⟨t, ht⟩ | ⟨-, -, hf⟩ | ⟨-, -, hf⟩
    · exact .inl ⟨_, t, hfetch, ht, ht⟩
    · exact .inr ⟨_, hf⟩
    · exact .inr ⟨_, hf⟩
  · exact .inr ⟨_, executeOne_of_outOfRange (by omega)⟩

theorem instrLoop_succ_of_next {s t : State} (h : executeOne s = .next t) (n : Nat) :
    instrLoop (n + 1) s = instrLoop n t := by
  simp only [instrLoop, h]

theorem instrLoop_succ_of_fault {s : State} {f : Fault} (h : executeOne s = .fault f) (n : Nat) :
    instrLoop (n + 1) s = .next (leaveLoop f s) := by
  simp only [instrLoop, h]

/-- An instruction that leaves the state as it is uses up the loop. -/
theorem instrLoop_of_stable {s : State} (h : executeOne s = .next s) (n : Nat) : instrLoop n s = .next s := by
  induction n with
  | zero => rfl
  | succ n ih => rw [instrLoop_succ_of_next h, ih]

theorem instrLoop_yields (n : Nat) (s : State) :
    Yields (instrLoop n s) fun t => t.slots = s.slots ∧ t.events = s.events := by
  induction n generalizing s with
  | zero => exact ⟨s, rfl, rfl, rfl⟩
  | succ n ih =>
    rcases executeOne_total s with ⟨w, t, -, hexec, hone⟩ | ⟨f, hf⟩
    · have hkeeps := noInstructionTouchesTheHostsState _ s t hexec
      obtain ⟨u, hu, hslots, hevents⟩ := ih t
      exact ⟨u, (instrLoop_succ_of_next hone n).trans hu, hslots.trans (hkeeps .slots (by decide)),
        hevents.trans (hkeeps .events (by decide))⟩
    · refine ⟨_, instrLoop_succ_of_fault hf n, ?_⟩
      cases f <;> exact ⟨rfl, rfl⟩

theorem tick_of_running {s : State} (hrun : s.running = true) :
    tick s = mapNext closePhases (instrLoop Config.ipt (timerPhases s)) := by
  rw [tick, if_pos hrun]
  cases instrLoop Config.ipt (timerPhases s) <;> rfl

theorem tick_of_paused {s : State} (hrun : s.running = false) : tick s = .next (pausedTick s) := by
  rw [tick, hrun]
  rfl

theorem unchanged_closePhases (s : State) : Unchanged [.renderReq, .keyJustPressed] s (closePhases s) := by
  intro p hp
  cases p with
  | renderReq | keyJustPressed => simp at hp
  | _ => simp [Part.same]

/-- Settles O31: the key wait leaves the state as the timer phases left it, so the loop does. -/
theorem keyWaitWithoutAnEdgeRepeats : Obligations.KeyWaitWithoutAnEdgeRepeats := by
  intro x s hrun hfetch hphase hedge
  obtain ⟨w, hw, hdecode⟩ := Option.map_eq_some_iff.mp hfetch
  have hfetch' : (timerPhases s).fetch16 = some w := hw
  have hwait : executeOne (timerPhases s) = .next (timerPhases s) := by
    rw [executeOne_of_fetch hfetch', hdecode]
    exact exec_ldVxK_of_noEdge (s := timerPhases s) hphase hedge x
  rw [tick_of_running hrun, instrLoop_of_stable hwait, mapNext, yields_next]
  refine ⟨rfl, rfl, fun p hp => ?_⟩
  by_cases hkey : p = .keyJustPressed
  · subst hkey
    exact hedge.symm
  · exact ((unchanged_timerPhases s).trans (unchanged_closePhases _)) p (by simp_all)

/-- Settles O43: the loop is left by its first fetch, after the timer phases. -/
theorem outOfRangeTickOnlyRunsTheTimers : Obligations.OutOfRangeTickOnlyRunsTheTimers := by
  intro s hrun hPC
  have hfault : executeOne (timerPhases s) = .fault .pcOutOfRange := executeOne_of_outOfRange hPC
  rw [tick_of_running hrun, Config.ipt, instrLoop_succ_of_fault hfault, mapNext, yields_next]
  have hframe := ((unchanged_timerPhases s).trans (unchanged_leaveLoop_pcOutOfRange _)).trans (unchanged_closePhases _)
  exact ⟨rfl, rfl, rfl, decTimer_toNat s.DT, decTimer_toNat s.ST, hframe.mono (by decide)⟩

/-! ## The steps of a tick -/

theorem run_succ_of_next {s t : State} (h : step s = .next t) (k : Nat) :
    Host.Core.run Sys2Proof.core (k + 1) s = Host.Core.run Sys2Proof.core k t := by
  have hcore : Sys2Proof.core.step s = .next t := h
  simp only [Host.Core.run, hcore]

/-- The slot count is not read by the instruction that uses the slot (log 12). -/
theorem executeOne_withSlotCount (n : Nat) (s : State) :
    executeOne (s.withSlotCount n) = mapNext (State.withSlotCount n) (executeOne s) := by
  by_cases hle : s.PC.toNat ≤ 4094
  · have hfetch := State.fetch16_of_le hle
    rw [executeOne_of_fetch hfetch, executeOne_of_fetch (s := s.withSlotCount n) hfetch, exec_withSlotCount]
  · have hout : 4094 < s.PC.toNat := by omega
    rw [executeOne_of_outOfRange hout, executeOne_of_outOfRange (s := s.withSlotCount n) hout]
    rfl

theorem leaveLoop_withSlotCount (f : Fault) (n : Nat) (s : State) :
    leaveLoop f (s.withSlotCount n) = (leaveLoop f s).withSlotCount n := by
  cases f <;> rfl

/-- The loop of the whole tick over the first slot's answer. -/
theorem instrLoop_withSlotCount_of_next {s t : State} (h : executeOne s = .next t) (n : Nat) :
    instrLoop (n + 1) (s.withSlotCount 0) = instrLoop n (t.withSlotCount 0) :=
  instrLoop_succ_of_next ((executeOne_withSlotCount 0 s).trans (congrArg _ h)) n

theorem instrLoop_withSlotCount_of_fault {s : State} {f : Fault} (h : executeOne s = .fault f) (n : Nat) :
    instrLoop (n + 1) (s.withSlotCount 0) = .next ((leaveLoop f s).withSlotCount 0) := by
  rw [← leaveLoop_withSlotCount]
  exact instrLoop_succ_of_fault ((executeOne_withSlotCount 0 s).trans (congrArg _ h)) n

/-- The slots left of a tick, one a step, reach what the loop and the closing phases give taken whole (R251, R253,
R254). -/
theorem run_slots (n : Nat) {s : State} (hslot : s.atSlot n) :
    ∃ k, 1 ≤ k ∧ k ≤ n + 1 ∧
      Host.Core.run Sys2Proof.core k s = mapNext closePhases (instrLoop (n + 1) (s.withSlotCount 0)) := by
  induction n generalizing s with
  | zero =>
    refine ⟨1, le_rfl, le_rfl, ?_⟩
    rcases executeOne_total s with ⟨w, t, hfetch, hexec, hone⟩ | ⟨f, hf⟩
    · rw [run_succ_of_next (step_of_atSlot hslot hfetch hexec), instrLoop_withSlotCount_of_next hone]
      rfl
    · rw [run_succ_of_next (step_of_fault hslot hf), instrLoop_withSlotCount_of_fault hf]
      rfl
  | succ n ih =>
    rcases executeOne_total s with ⟨w, t, hfetch, hexec, hone⟩ | ⟨f, hf⟩
    · have hfaulted : t.faulted = s.faulted :=
        noInstructionTouchesTheHostsState _ s t hexec .faulted (by decide)
      have hnext : (t.withSlotCount (n + 1)).atSlot n := ⟨hfaulted.trans hslot.1, rfl⟩
      obtain ⟨k, hpos, hle, hrun⟩ := ih hnext
      refine ⟨k + 1, by omega, by omega, ?_⟩
      rw [run_succ_of_next (step_of_atSlot hslot hfetch hexec), instrLoop_withSlotCount_of_next hone]
      exact hrun
    · refine ⟨1, le_rfl, by omega, ?_⟩
      rw [run_succ_of_next (step_of_fault hslot hf), instrLoop_withSlotCount_of_fault hf]
      rfl

theorem applyEvent_tick_of_paused {s : State} (hrun : s.running = false) : applyEvent .tick s = pausedTick s := by
  rw [applyEvent, hrun]
  rfl

/-- The tick taken whole answers a next state, between ticks again, with no event used. -/
theorem tick_yields (s : State) : Yields (tick s) fun t => t.slots = s.slots ∧ t.events = s.events := by
  cases hrun : s.running with
  | false => rw [tick_of_paused hrun, yields_next]; exact ⟨rfl, rfl⟩
  | true =>
    obtain ⟨t, ht, hslots, hevents⟩ := instrLoop_yields Config.ipt (timerPhases s)
    rw [tick_of_running hrun, ht, mapNext, yields_next]
    exact ⟨hslots, hevents⟩

/-- After the step that opens it, at most `IPT` steps end a tick where the tick taken whole ends. -/
theorem run_applyEvent_tick {s : State} (hslots : s.slots = 0) (hfaulted : s.faulted = none) :
    ∃ k ≤ Config.ipt, Host.Core.run Sys2Proof.core k (applyEvent .tick s) = tick s := by
  cases hrun : s.running with
  | false =>
    rw [applyEvent_tick_of_paused hrun, tick_of_paused hrun]
    exact ⟨0, Nat.zero_le _, rfl⟩
  | true =>
    have hopened : (beginTick s).atSlot 14 := by rw [beginTick_eq]; exact ⟨hfaulted, rfl⟩
    have hbetween : (beginTick s).withSlotCount 0 = timerPhases s := by rw [beginTick_eq, ← hslots]; rfl
    obtain ⟨k, -, hle, hsteps⟩ := run_slots 14 hopened
    rw [hbetween] at hsteps
    rw [applyEvent_tick_of_running hrun, tick_of_running hrun]
    exact ⟨k, hle, hsteps⟩

/-- Settles O42: one step opens the tick and the slots it opened follow. -/
theorem stepsOfATickMakeTheWholeTick : Obligations.StepsOfATickMakeTheWholeTick := by
  intro rest s hat
  have hopen := step_of_atEvent hat
  obtain ⟨hfaulted, hslots, -⟩ := hat
  obtain ⟨k, hle, hsteps⟩ := run_applyEvent_tick (s := { s with events := rest }) hslots hfaulted
  obtain ⟨t, ht, hslots', hevents⟩ := tick_yields { s with events := rest }
  exact ⟨k + 1, by omega, by omega, (run_succ_of_next hopen k).trans hsteps, t, ht, hslots'.trans hslots, hevents⟩

end Sys2Proof.Machine
end

section
/-! PROOFS. What the host events may write and what they do (`45_frame_sequencer.md` R257, R258, R262;
`70_reset_and_hazards.md` R320 to R324; `10_state.md` R43, R46), and what a step can change of the key edge and of the
record of a failed load, over an inversion of the step. -/

namespace Sys2Proof.Machine

/-! ## Frames of the events -/

theorem unchanged_setRunning (b : Bool) (s : State) : Unchanged [.running] s (setRunning b s) := by
  intro p hp
  cases p with
  | running => simp at hp
  | _ => simp [Part.same]

theorem unchanged_setMode (m : BitVec 3) (s : State) : Unchanged [.compatMode] s (setMode m s) := by
  intro p hp
  cases p with
  | compatMode => simp at hp
  | _ => simp [Part.same]

theorem unchanged_pausedTick (s : State) : Unchanged [.soundSignal, .renderReq, .pcOor] s (pausedTick s) := by
  intro p hp
  cases p with
  | soundSignal | renderReq | pcOor => simp at hp
  | _ => simp [Part.same]

theorem unchanged_beginTick (s : State) :
    Unchanged [.redrawFlag, .soundSignal, .DT, .ST, .pcOor, .slots] s (beginTick s) := by
  rw [beginTick_eq]
  exact (unchanged_timerPhases s).trans (unchanged_slots _ 15)

theorem unchanged_loadEvent (bytes : List Byte) (s : State) :
    Unchanged [.PC, .running, .loadErr, .loadLength, .disp, .mem] s (loadEvent bytes s) := by
  rw [loadEvent_eq]
  split <;> intro p hp <;> cases p with
  | PC | running | loadErr | loadLength | disp | mem => simp at hp
  | V | stack | keys => exact fun _ => rfl
  | _ => rfl

/-- The parts of the state tuple of R20, which Initialize resets (R320). -/
def resetParts : List Part :=
  [.PC, .I, .SP, .DT, .ST, .V, .stack, .disp, .keys, .mem, .keyJustPressed, .lastKey, .kwPhase, .kwKey, .running,
    .redrawFlag, .soundSignal]

theorem unchanged_initState (s : State) : Unchanged resetParts s (initState s) := by
  intro p hp
  cases p with
  | compatMode | renderReq | pcOor | loadErr | loadLength | slots | faulted | events | randCount => rfl
  | _ => simp [resetParts] at hp

/-- The parts of the state a host event may write (R46, R200, R258, R262, R320, R322); for Tick those of the step that
takes it (log 12). -/
def eventParts : HostEvent → List Part
  | .init => resetParts
  | .loadProgram _ => [.PC, .running, .loadErr, .loadLength, .disp, .mem]
  | .setKey _ _ => [.keys, .lastKey, .keyJustPressed]
  | .setRunning _ => [.running]
  | .setMode _ => [.compatMode]
  | .tick => [.redrawFlag, .soundSignal, .DT, .ST, .pcOor, .slots, .renderReq]

theorem unchanged_applyEvent (e : HostEvent) (s : State) : Unchanged (eventParts e) s (applyEvent e s) := by
  cases e with
  | init => exact unchanged_initState s
  | loadProgram bytes => exact unchanged_loadEvent bytes s
  | setKey k pressed => exact unchanged_setKey k pressed s
  | setRunning b => exact unchanged_setRunning b s
  | setMode m => exact unchanged_setMode m s
  | tick =>
    cases hrun : s.running with
    | false =>
      rw [applyEvent_tick_of_paused hrun]
      exact (unchanged_pausedTick s).mono (by simp [eventParts])
    | true =>
      rw [applyEvent_tick_of_running hrun]
      exact (unchanged_beginTick s).mono (by simp [eventParts])

/-! ## Events that set a field -/

/-- Settles O41: the paused tick, on the state without the event. -/
theorem pausedTickOnlySignals : Obligations.PausedTickOnlySignals := by
  intro rest s hat hrun
  rw [step_of_atEvent hat, applyEvent_tick_of_paused (s := { s with events := rest }) hrun, yields_next]
  exact ⟨rfl, rfl, rfl, rfl, (unchanged_events s rest).trans (unchanged_pausedTick _)⟩

/-- Settles O44: the two events, each on the state without it. -/
theorem runAndModeEventsSetOneField : Obligations.RunAndModeEventsSetOneField := by
  intro rest s
  refine ⟨fun b hat => ?running, fun m hat => ?mode⟩
  case running =>
    rw [step_of_atEvent hat, yields_next]
    exact ⟨rfl, rfl, (unchanged_events s rest).trans (unchanged_setRunning b _)⟩
  case mode =>
    rw [step_of_atEvent hat, yields_next]
    exact ⟨rfl, rfl, (unchanged_events s rest).trans (unchanged_setMode m _)⟩

/-! ## What the events leave alone -/

theorem not_mem_eventParts_of_ne_init {e : HostEvent} (he : e ≠ .init) :
    ∀ p ∈ [Part.V, .I, .stack, .SP, .kwPhase, .kwKey], p ∉ eventParts e := by
  cases e with
  | init => exact absurd rfl he
  | _ => simp [eventParts]

theorem not_mem_eventParts_of_ne_load {e : HostEvent} (he : e ≠ .init) (hload : ∀ bytes, e ≠ .loadProgram bytes) :
    ∀ p ∈ [Part.PC, .mem, .disp], p ∉ eventParts e := by
  cases e with
  | init => exact absurd rfl he
  | loadProgram bytes => exact absurd rfl (hload bytes)
  | _ => simp [eventParts]

/-- The timers move only with a running tick or Initialize (R28, R29, R257). -/
theorem applyEvent_keeps_timers {e : HostEvent} {s : State} (he : e ≠ .init) (htick : e ≠ .tick ∨ s.running = false) :
    Part.DT.same s (applyEvent e s) ∧ Part.ST.same s (applyEvent e s) := by
  have hkeeps := unchanged_applyEvent e s
  cases e with
  | init => exact absurd rfl he
  | tick =>
    rw [applyEvent_tick_of_paused (htick.resolve_left (not_not_intro rfl))]
    exact ⟨rfl, rfl⟩
  | _ => exact ⟨hkeeps .DT (by simp [eventParts]), hkeeps .ST (by simp [eventParts])⟩

/-- Settles O53: the step applies the event to the state without it, and the parts named are not among those the event
may write. -/
theorem hostEventsLeaveTheRegistersAlone : Obligations.HostEventsLeaveTheRegistersAlone := by
  intro e rest s t hat he hstep
  rw [step_of_atEvent hat] at hstep
  cases hstep
  have hevents := unchanged_events s rest
  have hkeeps {p : Part} (hp : p ∉ [Part.events]) (he : p ∉ eventParts e) :
      p.same s (applyEvent e { s with events := rest }) :=
    Part.same_trans (hevents p hp) (unchanged_applyEvent e _ p he)
  have hcore := not_mem_eventParts_of_ne_init he
  refine ⟨hkeeps (by decide) (hcore .V (by decide)), hkeeps (by decide) (hcore .I (by decide)),
    hkeeps (by decide) (hcore .stack (by decide)), hkeeps (by decide) (hcore .SP (by decide)),
    hkeeps (by decide) (hcore .kwPhase (by decide)), hkeeps (by decide) (hcore .kwKey (by decide)),
    fun htick => applyEvent_keeps_timers (s := { s with events := rest }) he htick, fun hload => ?program⟩
  case program =>
    have hplace := not_mem_eventParts_of_ne_load he hload
    exact ⟨hkeeps (by decide) (hplace .PC (by decide)), hkeeps (by decide) (hplace .mem (by decide)),
      hkeeps (by decide) (hplace .disp (by decide))⟩

/-! ## What a step can change -/

theorem unchanged_withSlots (n : Nat) (s : State) :
    Unchanged [.slots, .renderReq, .keyJustPressed] s (withSlots n s) := by
  rw [withSlots_eq]
  split
  · exact unchanged_closeTick s
  · exact (unchanged_slots s n).mono (by simp)

theorem unchanged_leaveLoop (f : Fault) (s : State) : Unchanged [.pcOor, .faulted] s (leaveLoop f s) := by
  by_cases hf : f = .pcOutOfRange
  · rw [hf]
    exact (unchanged_leaveLoop_pcOutOfRange s).mono (by simp)
  · rw [leaveLoop_of_recorded hf]
    exact (unchanged_faulted s _).mono (by simp)

/-- Everything a step that answers a next state can do: nothing, for want of an event; one host event; one instruction
of the tick under way; or the end of a tick by a fault. -/
theorem step_cases {s t : State} (h : step s = .next t) :
    t = s ∨ (∃ e rest, s.atEvent e rest ∧ t = applyEvent e { s with events := rest }) ∨
      (∃ left w u, s.atSlot left ∧ s.fetch16 = some w ∧ exec (decode w) s = .next u ∧ t = withSlots left u) ∨
      ∃ left f, s.atSlot left ∧ executeOne s = .fault f ∧ t = closeTick (leaveLoop f s) := by
  obtain ⟨hfaulted, ⟨hslots, rfl⟩ | ⟨left, hslots, hrun⟩⟩ := step_eq_next h
  · cases hevents : s.events with
    | nil => exact .inl (by simp only [betweenTicks, hevents])
    | cons e rest => exact .inr (.inl ⟨e, rest, ⟨hfaulted, hslots, hevents⟩, by simp only [betweenTicks, hevents]⟩)
  · rcases runSlot_eq_next hrun with ⟨w, u, hfetch, hexec, rfl⟩ | ⟨f, hf, rfl⟩
    · exact .inr (.inr (.inl ⟨left, w, u, ⟨hfaulted, hslots⟩, hfetch, hexec, rfl⟩))
    · exact .inr (.inr (.inr ⟨left, f, ⟨hfaulted, hslots⟩, hf, rfl⟩))

/-- No event but Initialize takes the key edge away (R201). -/
theorem applyEvent_keyJustPressed {e : HostEvent} {s : State} (he : e ≠ .init) (hedge : s.keyJustPressed = true) :
    (applyEvent e s).keyJustPressed = true := by
  have hkeeps := unchanged_applyEvent e s
  cases e with
  | init => exact absurd rfl he
  | setKey k pressed => exact (setKey_keyJustPressed k pressed s).trans (by rw [hedge, ite_self])
  | _ => exact (hkeeps .keyJustPressed (by simp [eventParts])).trans hedge

/-- Settles O33: events keep the edge, instructions keep it, and what ends it in a tick is the tick's closing. -/
theorem keyEdgeLastsToTheEndOfTheTick : Obligations.KeyEdgeLastsToTheEndOfTheTick := by
  intro s t hstep hedge hgone
  rcases step_cases hstep with rfl | ⟨e, rest, hat, rfl⟩ | ⟨left, w, u, hslot, -, hexec, rfl⟩ | ⟨left, f, hslot, -, rfl⟩
  case inl => exact absurd (hedge.symm.trans hgone) (by decide)
  case inr.inl =>
    by_cases he : e = .init
    · exact .inr ⟨rest, he ▸ hat⟩
    · have hkept := applyEvent_keyJustPressed (s := { s with events := rest }) he hedge
      exact absurd (hkept.symm.trans hgone) (by decide)
  case inr.inr.inl =>
    have hpos : 0 < s.slots := by rw [hslot.2]; exact Nat.succ_pos left
    cases left with
    | zero => exact .inl ⟨hpos, rfl, rfl⟩
    | succ k =>
      have hkept : u.keyJustPressed = s.keyJustPressed :=
        noInstructionTouchesTheHostsState _ s u hexec .keyJustPressed (by decide)
      exact absurd ((hkept.trans hedge).symm.trans hgone) (by decide)
  case inr.inr.inr =>
    have hpos : 0 < s.slots := by rw [hslot.2]; exact Nat.succ_pos left
    exact .inl ⟨hpos, rfl, rfl⟩

/-! ## Loads -/

theorem loadEvent_memRead {bytes : List Byte} (hfits : bytes.length ≤ 3584) (s : State) (a : Nat) :
    (loadEvent bytes s).memRead a = (s.memWriteList 0x200 bytes).memRead a := by
  rw [loadEvent_eq, if_neg (by omega)]
  rfl

/-- Settles O45: the load event on the state without the event, below the limit. -/
theorem loadProgramCopiesAndRestarts : Obligations.LoadProgramCopiesAndRestarts := by
  intro bytes rest s hat hfits
  have hload := (loadEvent_eq bytes { s with events := rest }).trans (if_neg (by omega))
  have hread := loadEvent_memRead hfits { s with events := rest }
  have hframe := (unchanged_events s rest).trans (unchanged_loadEvent bytes { s with events := rest })
  rw [step_of_atEvent hat, yields_next]
  refine ⟨loadEvent_events bytes _, ?pc, ?running, ?err, ?length, ?blank, fun i hi => ?copied, fun a ha hout => ?kept,
    hframe⟩
  case pc => exact congrArg State.PC hload
  case running => exact congrArg State.running hload
  case err => exact congrArg State.loadErr hload
  case length => exact congrArg State.loadLength hload
  case blank =>
    intro y x
    exact (congrArg (State.cell · y x) hload).trans (blankDisplay_cell y y.isLt x x.isLt)
  case copied =>
    exact (hread _).trans (State.memRead_memWriteList _ _ _ (by rw [Config.memSize]; omega) i hi)
  case kept =>
    refine (hread a).trans (State.memRead_memWriteList_outside _ _ _ a fun k hk => ?_)
    rw [Config.memSize]
    omega

/-- Settles O59: the load event says what is recorded, and no other event and no instruction writes the record. -/
theorem failedLoadRecordsItsLength : Obligations.FailedLoadRecordsItsLength := by
  constructor
  · intro bytes rest s hat
    rw [step_of_atEvent hat, yields_next]
    exact loadEvent_loadLength bytes _
  · intro s t hstep hne
    rcases step_cases hstep with rfl | ⟨e, rest, hat, rfl⟩ | ⟨left, w, u, -, -, hexec, rfl⟩ | ⟨left, f, -, -, rfl⟩
    case inl => exact absurd rfl hne
    case inr.inl =>
      have hkeeps := unchanged_applyEvent e { s with events := rest }
      cases e with
      | loadProgram bytes => exact ⟨bytes, rest, hat⟩
      | _ => exact absurd (hkeeps .loadLength (by simp [eventParts, resetParts])) hne
    case inr.inr.inl =>
      have hkept := noInstructionTouchesTheHostsState _ s u hexec .loadLength (by decide)
      exact absurd (Part.same_trans hkept (unchanged_withSlots left u .loadLength (by decide))) hne
    case inr.inr.inr =>
      have hkept := unchanged_leaveLoop f s .loadLength (by decide)
      exact absurd (Part.same_trans hkept (unchanged_closeTick _ .loadLength (by decide))) hne

end Sys2Proof.Machine
end

section
/-! PROOFS. The state after reset and what Initialize gives (`10_state.md` R31, R43; `70_reset_and_hazards.md` R320,
R321). -/

namespace Sys2Proof.Machine

@[simp] theorem reset_reg (r : Reg) : State.reset.reg r = 0 := by simp [State.reg, State.reset]

@[simp] theorem reset_slot (k : Fin 16) : State.reset.slot k = 0 := by simp [State.slot, State.reset]

@[simp] theorem reset_cell (y : Fin 32) (x : Fin 64) : State.reset.cell y x = false := by
  simp [State.cell, State.reset]

@[simp] theorem reset_key (k : Fin 16) : State.reset.key k = false := by simp [State.key, State.reset]

/-- Reset memory is the font at its place and 0 elsewhere (R31, R43). -/
theorem reset_memRead {a : Nat} (ha : a < 4096) :
    State.reset.memRead a =
      if Config.fontBase ≤ a ∧ a < Config.fontBase + 80 then Config.font.getD (a - Config.fontBase) 0 else 0 := by
  have hmod : a % Config.memSize = a := Nat.mod_eq_of_lt ha
  rw [State.memRead, hmod]
  rfl

/-- Settles O48: memory by its rule, the other fields as reset writes them. -/
theorem resetValues : Obligations.ResetValues := by
  refine ⟨rfl, rfl, rfl, rfl, rfl, reset_reg, reset_slot, fun d k => ?glyph, fun a ha hout => ?zero, reset_cell,
    reset_key, rfl, rfl, rfl⟩
  case glyph =>
    have hd := d.isLt
    have hk := k.isLt
    have hbase : Config.fontBase + 80 ≤ 4096 := by decide
    rw [reset_memRead (by omega), if_pos (by omega), Nat.add_assoc, Nat.add_sub_cancel_left]
  case zero => rw [reset_memRead ha, if_neg (by omega)]

/-- Settles O47: Initialize gives the tuple of the state after reset and leaves the rest. -/
theorem initializeResetsTheWholeState : Obligations.InitializeResetsTheWholeState := by
  intro rest s hat
  rw [step_of_atEvent hat, yields_next]
  exact ⟨rfl, rfl, rfl, rfl, rfl, rfl, reset_reg, reset_slot, reset_cell, reset_key, fun a ha => reset_memRead ha, rfl,
    rfl, rfl, rfl, rfl, rfl, rfl, (unchanged_events s rest).trans (unchanged_initState _)⟩

/-- Settles O58: reset memory lists nothing, and every other bound holds of the reset values. -/
theorem resetMeetsTheInvariant : Obligations.ResetMeetsTheInvariant where
  memCanonical := State.reset_mem_wf
  pcBound := by decide
  stackBound k := by rw [reset_slot]; exact Nat.zero_le _
  slotsBound := by decide
  slotsRunning h := absurd rfl h
  loadRecord := rfl
  faultIsStack := .inl rfl

end Sys2Proof.Machine
end

section
/-! PROOFS. Every step keeps the invariant (`10_state.md` R24, R26; `45_frame_sequencer.md` R253; `60_exceptions.md`
R280, R283): first every instruction, then the end of a slot and every host event. -/

namespace Sys2Proof.Machine

/-! ## Instructions -/

/-- Memory is left as it stands by every instruction but FX33 and FX55 (R66). -/
theorem exec_mem_eq {i : Instr} {s t : State} (h : exec i s = .next t) (hi : ∀ x, i ≠ .ldB x ∧ i ≠ .ldMemVx x) :
    t.mem = s.mem := by
  cases i with
  | ldB x => exact absurd rfl (hi x).1
  | ldMemVx x => exact absurd rfl (hi x).2
  | ret =>
    rcases s.SP_succ_or_empty with ⟨k, hk⟩ | hempty
    · cases h.symm.trans (exec_ret_of_SP hk); rfl
    · cases h.symm.trans (exec_ret_of_empty hempty)
  | call nnn =>
    rcases s.SP_lt_or_full with ⟨k, hk⟩ | hfull
    · cases h.symm.trans (exec_call_of_SP hk nnn); rfl
    · cases h.symm.trans (exec_call_of_full hfull nnn)
  | seImm | sneImm | seReg | sneReg | skp | sknp => cases h; rw [State.skipIf_eq]; rfl
  | orReg x y | andReg x y | xorReg x y => cases h; rw [State.advance_eq, State.setPC_mem, State.setLogicResult_eq]
  | addI x => rw [exec_addI] at h; split at h <;> cases h <;> rfl
  | ldStVx x => rw [exec_ldStVx] at h; split at h <;> cases h <;> rfl
  | ldVxK x => rcases exec_ldVxK_cases h with rfl | rfl | rfl <;> rfl
  | _ => cases h; rfl

theorem exec_keeps_mem_wf {i : Instr} {s t : State} (hwf : s.mem.wf = true) (h : exec i s = .next t) :
    t.mem.wf = true := by
  cases i with
  | ldB x => cases h; exact State.memWriteList_wf hwf _ _
  | ldMemVx x => cases h; exact State.memWriteList_wf hwf _ _
  | _ => rw [exec_mem_eq h (by simp)]; exact hwf

/-! ## The bounds on `PC` and the saved addresses -/

/-- From a legal fetch, the next `PC` is at most two instructions on, a saved address, or what a jump can reach: BNNN
the highest, 4095 + 255 (R24). -/
theorem exec_PC_le {i : Instr} {s t : State} (hPC : s.PC.toNat ≤ 4094) (hstack : ∀ k, (s.slot k).toNat ≤ 4096)
    (h : exec i s = .next t) : t.PC.toNat ≤ 0x10FE := by
  have hadvance : (s.PC + 2).toNat ≤ 0x10FE := by
    rw [BitVec.toNat_add]
    exact (Nat.mod_le _ _).trans (by have : (2 : Word).toNat = 2 := rfl; omega)
  have hskip (c : Bool) : (s.skipIf c).PC.toNat ≤ 0x10FE := by
    rw [skipIf_PC_toNat]
    cases c <;> simp only [Bool.false_eq_true, if_true, if_false] <;> omega
  have hoffset (b : Byte) : b.toNat < 256 := b.isLt
  have haddr (nnn : Addr12) : nnn.toNat < 4096 := nnn.isLt
  cases i with
  | jp nnn => cases h; exact (zext16_toNat nnn).trans_le (by have := haddr nnn; omega)
  | jpV0 nnn =>
    cases h
    refine (zext16_add_zextByte_toNat nnn _).trans_le ?_
    have := haddr nnn
    have := hoffset (s.jumpOffset nnn)
    omega
  | ret =>
    rcases s.SP_succ_or_empty with ⟨k, hk⟩ | hempty
    · cases h.symm.trans (exec_ret_of_SP hk); exact (hstack k).trans (by decide)
    · cases h.symm.trans (exec_ret_of_empty hempty)
  | call nnn =>
    rcases s.SP_lt_or_full with ⟨k, hk⟩ | hfull
    · cases h.symm.trans (exec_call_of_SP hk nnn); exact (zext16_toNat nnn).trans_le (by have := haddr nnn; omega)
    · cases h.symm.trans (exec_call_of_full hfull nnn)
  | seImm | sneImm | seReg | sneReg | skp | sknp => cases h; exact hskip _
  | orReg x y | andReg x y | xorReg x y =>
    cases h
    rw [State.advance_eq, State.setPC_PC, State.setLogicResult_eq]
    exact hadvance
  | addI x => rw [((addToIndexSetsTheFlagUnderAmiga x s).of_eq_next h).1]; exact hadvance
  | ldStVx x => rw [((soundTimerWriteStartsTheTone x s).of_eq_next h).1]; exact hadvance
  | ldB x => rw [((bcdStoresThreeDigits x s).of_eq_next h).1]; exact hadvance
  | ldMemVx x => rw [((blockStoreWritesTheRegisters x s).of_eq_next h).1]; exact hadvance
  | ldVxK x =>
    rcases exec_ldVxK_cases h with rfl | rfl | rfl
    · exact hPC.trans (by decide)
    · exact hPC.trans (by decide)
    · exact hadvance
  | _ => cases h; exact hadvance

/-- Only CALL writes the stack, and it saves the address two past a legal fetch (R26, R126). -/
theorem exec_slot_le {i : Instr} {s t : State} (hPC : s.PC.toNat ≤ 4094) (hstack : ∀ k, (s.slot k).toNat ≤ 4096)
    (h : exec i s = .next t) (k : Fin 16) : (t.slot k).toNat ≤ 4096 := by
  by_cases hi : ∃ nnn, i = .call nnn
  case neg => rw [exec_keeps_stack h (fun nnn hnnn => hi ⟨nnn, hnnn⟩) k]; exact hstack k
  case pos =>
    obtain ⟨nnn, rfl⟩ := hi
    rcases s.SP_lt_or_full with ⟨top, htop⟩ | hfull
    case inr => cases h.symm.trans (exec_call_of_full hfull nnn)
    case inl =>
      obtain ⟨-, -, hslot, -⟩ := ((callPushesTheReturnAddress nnn s).1 top htop).of_eq_next h
      rw [hslot]
      split
      · omega
      · exact hstack k

/-! ## The invariant -/

namespace State.Inv

variable {s t : State}

/-- The invariant reads eight fields. -/
theorem of_same (hs : s.Inv) (hmem : t.mem = s.mem) (hPC : t.PC = s.PC) (hstack : t.stack = s.stack)
    (hslots : t.slots = s.slots) (hrunning : t.running = s.running) (herr : t.loadErr = s.loadErr)
    (hlength : t.loadLength = s.loadLength) (hfaulted : t.faulted = s.faulted) : t.Inv where
  memCanonical := hmem ▸ hs.memCanonical
  pcBound := hPC ▸ hs.pcBound
  stackBound k := by simpa only [slot, hstack] using hs.stackBound k
  slotsBound := hslots ▸ hs.slotsBound
  slotsRunning := hslots ▸ hrunning ▸ hs.slotsRunning
  loadRecord := by rw [herr, hlength, hs.loadRecord]
  faultIsStack := hfaulted ▸ hs.faultIsStack

/-- An instruction run after a legal fetch keeps the invariant. -/
theorem of_exec (hs : s.Inv) {i : Instr} {w : Word} (hfetch : s.fetch16 = some w) (h : exec i s = .next t) : t.Inv := by
  have hkeeps := noInstructionTouchesTheHostsState i s t h
  have hPC := (fetch16_eq_some hfetch).1
  have hslots : t.slots = s.slots := hkeeps .slots (by decide)
  have hrunning : t.running = s.running := hkeeps .running (by decide)
  have herr : t.loadErr = s.loadErr := hkeeps .loadErr (by decide)
  have hlength : t.loadLength = s.loadLength := hkeeps .loadLength (by decide)
  have hfaulted : t.faulted = s.faulted := hkeeps .faulted (by decide)
  exact {
    memCanonical := exec_keeps_mem_wf hs.memCanonical h
    pcBound := exec_PC_le hPC hs.stackBound h
    stackBound := exec_slot_le hPC hs.stackBound h
    slotsBound := hslots ▸ hs.slotsBound
    slotsRunning := hslots ▸ hrunning ▸ hs.slotsRunning
    loadRecord := by rw [herr, hlength, hs.loadRecord]
    faultIsStack := hfaulted ▸ hs.faultIsStack }

theorem closeTick (hs : s.Inv) : (closeTick s).Inv :=
  { hs with
    slotsBound := Nat.zero_le _
    slotsRunning := fun h => absurd rfl h }

/-- Slots left of a tick, within the quota and only while the machine runs (R253). -/
theorem withSlots (hs : s.Inv) {n : Nat} (hle : n ≤ Config.ipt) (hrunning : s.running = true) :
    (withSlots n s).Inv := by
  rw [withSlots_eq]
  split
  · exact hs.closeTick
  · exact { hs with slotsBound := hle, slotsRunning := fun _ => hrunning }

/-- What `executeOne` faults with is reported or recorded (R254, R283, R284). -/
theorem leaveLoop (hs : s.Inv) {f : Fault} (hf : executeOne s = .fault f) : (leaveLoop f s).Inv := by
  rcases executeOne_eq_fault hf with ⟨rfl, -⟩ | rfl | rfl
  · exact hs.of_same rfl rfl rfl rfl rfl rfl rfl rfl
  · exact { hs with faultIsStack := .inr (.inl rfl) }
  · exact { hs with faultIsStack := .inr (.inr rfl) }

theorem initState (hs : s.Inv) (hslots : s.slots = 0) : (initState s).Inv where
  memCanonical := State.reset_mem_wf
  pcBound := resetMeetsTheInvariant.pcBound
  stackBound := resetMeetsTheInvariant.stackBound
  slotsBound := hs.slotsBound
  slotsRunning h := absurd hslots h
  loadRecord := hs.loadRecord
  faultIsStack := hs.faultIsStack

theorem loadEvent (hs : s.Inv) (bytes : List Byte) : (loadEvent bytes s).Inv := by
  rw [loadEvent_eq]
  split
  · exact { hs with loadRecord := rfl }
  · exact { hs with
      memCanonical := State.memWriteList_wf hs.memCanonical _ _
      pcBound := resetMeetsTheInvariant.pcBound
      slotsRunning := fun _ => rfl
      loadRecord := rfl }

theorem applyEvent (hs : s.Inv) (hslots : s.slots = 0) (e : HostEvent) : (applyEvent e s).Inv := by
  cases e with
  | init => exact hs.initState hslots
  | loadProgram bytes => exact hs.loadEvent bytes
  | setKey k pressed =>
    change (Machine.setKey k pressed s).Inv
    rw [setKey_eq]
    exact hs.of_same rfl rfl rfl rfl rfl rfl rfl rfl
  | setRunning b => exact { hs with slotsRunning := fun h => absurd hslots h }
  | setMode m => exact hs.of_same rfl rfl rfl rfl rfl rfl rfl rfl
  | tick =>
    cases hrun : s.running with
    | false =>
      rw [applyEvent_tick_of_paused hrun]
      exact hs.of_same rfl rfl rfl rfl rfl rfl rfl rfl
    | true =>
      have htimers : (timerPhases s).Inv := hs.of_same rfl rfl rfl rfl rfl rfl rfl rfl
      rw [applyEvent_tick_of_running hrun]
      exact htimers.withSlots le_rfl hrun

end State.Inv

/-- Settles O57: by what the step does: nothing, an event between ticks, an instruction after a legal fetch with one
slot used, or a fault that closes the tick. -/
theorem everyStepKeepsTheInvariant : Obligations.EveryStepKeepsTheInvariant := by
  intro s t hs hstep
  rcases step_cases hstep with
    rfl | ⟨e, rest, ⟨-, hslots, -⟩, rfl⟩ | ⟨left, w, u, ⟨-, hslots⟩, hfetch, hexec, rfl⟩ | ⟨left, f, -, hf, rfl⟩
  case inl => exact hs
  case inr.inl =>
    have hpopped : State.Inv { s with events := rest } := hs.of_same rfl rfl rfl rfl rfl rfl rfl rfl
    exact hpopped.applyEvent hslots e
  case inr.inr.inl =>
    have hle : left ≤ Config.ipt := by have := hs.slotsBound; omega
    have hrunning : s.running = true := hs.slotsRunning (by omega)
    have hkept : u.running = s.running := noInstructionTouchesTheHostsState _ s u hexec .running (by decide)
    exact (hs.of_exec hfetch hexec).withSlots hle (hkept.trans hrunning)
  case inr.inr.inr => exact (hs.leaveLoop hf).closeTick

end Sys2Proof.Machine
end

section
/-! PROOFS. A word placed by `withFetchWord` is what the next step fetches and decodes (log 11; `30_encoding.md` R90;
`40_fetch_control_flow.md` R121). -/

namespace Sys2Proof.Machine

/-- `PC` where a fetch is legal: as it stands, or at 0x200 where it is not (log 11). -/
def State.fetchable (s : State) : State :=
  if s.pcInRange then s else s.setPC (BitVec.ofNat 16 Config.progBase)

/-- Inside a tick: as it stands, or at the start of one where it is between ticks (log 11). -/
def State.inTick (s : State) : State :=
  if s.slots = 0 then { s with running := true, slots := Config.ipt } else s

/-- The two bytes of a word in memory order (R90). -/
def wordBytes (w : Word) : List Byte := [wordHi w, wordLo w]

theorem State.withFetchWord_eq {w : Nat} (hw : w < 65536) (s : State) :
    s.withFetchWord 16 w =
      { (s.fetchable.memWriteList s.fetchable.PC.toNat (wordBytes (BitVec.ofNat 16 w))).inTick with
        faulted := none } := by
  have hmod : w % 2 ^ 16 = w := Nat.mod_eq_of_lt hw
  rw [State.withFetchWord, hmod]
  rfl

theorem State.fetchable_of_le {s : State} (h : s.PC.toNat ≤ 4094) : s.fetchable = s :=
  if_pos (s.pcInRange_iff.mpr h)

theorem State.fetchable_PC_le (s : State) : s.fetchable.PC.toNat ≤ 4094 := by
  unfold State.fetchable
  split
  case isTrue h => exact s.pcInRange_iff.mp h
  case isFalse => rw [State.setPC_PC]; decide

theorem unchanged_inTick (s : State) : Unchanged [.running, .slots] s s.inTick := by
  unfold State.inTick
  split <;> intro p hp <;> cases p with
  | running | slots => simp at hp
  | V | stack | mem | keys => exact fun _ => rfl
  | disp => exact fun _ _ => rfl
  | _ => rfl

theorem State.inTick_slots (s : State) : ∃ left, s.inTick.slots = left + 1 := by
  unfold State.inTick
  split
  case isTrue => exact ⟨14, rfl⟩
  case isFalse h => exact Nat.exists_eq_succ_of_ne_zero h

/-- Placing a word changes, beside memory, only what puts the machine inside a tick without a fault (log 11). -/
theorem unchanged_placed (s : State) (a : Nat) (bytes : List Byte) :
    Unchanged [.running, .slots, .faulted] (s.memWriteList a bytes)
      { (s.memWriteList a bytes).inTick with faulted := none } :=
  (unchanged_inTick _).trans (unchanged_faulted _ none)

theorem decodeTableWord_eq {w : Nat} (hw : w < 65536) :
    decodeTableWord 16 w = some (decode (BitVec.ofNat 16 w)) := by
  have hmod : w % 2 ^ 16 = w := Nat.mod_eq_of_lt hw
  simp only [decodeTableWord, decodeBytes, hmod, wordOfBytes_hi_lo]

/-- Settles O7: the two bytes read back where the fetch looks for them, and only memory and the fields that open the
tick were written. -/
theorem placedWordIsFetchedNext : Obligations.PlacedWordIsFetchedNext := by
  intro s w hw
  have hwrite := unchanged_memWriteList s.fetchable s.fetchable.PC.toNat (wordBytes (BitVec.ofNat 16 w))
  have hread := State.memRead_memWriteList s.fetchable s.fetchable.PC.toNat (wordBytes (BitVec.ofNat 16 w))
    (by simp [wordBytes, Config.memSize])
  have hopen := unchanged_placed s.fetchable s.fetchable.PC.toNat (wordBytes (BitVec.ofNat 16 w))
  have hframe := hwrite.trans hopen
  rw [← State.withFetchWord_eq hw] at hopen hframe
  have hPC : (s.withFetchWord 16 w).PC = s.fetchable.PC := hframe .PC (by decide)
  refine ⟨?fetch, ?slot, decodeTableWord_eq hw, fun hle => ?frame⟩
  case fetch =>
    have hle : (s.withFetchWord 16 w).PC.toNat ≤ 4094 := hPC ▸ s.fetchable_PC_le
    have hbyte (a : Nat) : (s.withFetchWord 16 w).memRead a = _ := hopen .mem (by decide) a
    rw [State.fetch16_of_le hle, hbyte, hbyte, hPC]
    refine congrArg some ?_
    calc wordOfBytes _ _ = wordOfBytes (wordHi (BitVec.ofNat 16 w)) (wordLo (BitVec.ofNat 16 w)) :=
          congrArg₂ wordOfBytes (hread 0 (by simp [wordBytes])) (hread 1 (by simp [wordBytes]))
      _ = BitVec.ofNat 16 w := wordOfBytes_hi_lo _
  case slot =>
    rw [State.withFetchWord_eq hw]
    obtain ⟨left, hleft⟩ := State.inTick_slots
      (s.fetchable.memWriteList s.fetchable.PC.toNat (wordBytes (BitVec.ofNat 16 w)))
    exact ⟨left, rfl, hleft⟩
  case frame =>
    rw [State.fetchable_of_le hle] at hPC hframe
    exact ⟨hPC, hframe⟩

end Sys2Proof.Machine
end
